-- ==== Sys2Proof/Word.lean ====
section
/-! DEFINITION. The widths of what crosses the block's ports: 00_scope.md R5, 30_encoding.md R49 and R52. -/

namespace Sys2Proof

/-- A `u8` (00_scope.md section 7). -/
abbrev Byte := BitVec 8

/-- A 16-bit operand of a frame macro (30_encoding.md R52). -/
abbrev Word16 := BitVec 16

/-- One command word on the command port (30_encoding.md R49). -/
abbrev CmdWord := BitVec 19

end Sys2Proof
end

