-- ==== Sys2Proof/Machine/Operands.lean ====
section
/-! DEFINITION. Operand forms: the fields of a command word (30_encoding.md R49, R51) and the two bytes of a 16-bit
operand (R52, 20_memory.md R33). -/

namespace Sys2Proof.Machine

/-- `op = CW[18:16]` (R49). -/
def fieldOp (w : CmdWord) : BitVec 3 := w.extractLsb' 16 3

/-- `a = CW[15:8]` (R49). -/
def fieldA (w : CmdWord) : Byte := w.extractLsb' 8 8

/-- `b = CW[7:0]` (R49). -/
def fieldB (w : CmdWord) : Byte := w.extractLsb' 0 8

/-- `CW = (op << 16) | (a << 8) | b` (R49). -/
def packWord (op : BitVec 3) (a b : Byte) : CmdWord :=
  (op.setWidth 19 <<< 16) ||| (a.setWidth 19 <<< 8) ||| b.setWidth 19

/-- `hi = v[15:8]` (R52). -/
def hiByte (v : Word16) : Byte := v.extractLsb' 8 8

/-- `lo = v[7:0]` (R52). -/
def loByte (v : Word16) : Byte := v.extractLsb' 0 8

/-- The 16-bit value whose two bytes these are, high byte first (20_memory.md R33). -/
def joinBytes (hi lo : Byte) : Word16 := (hi.setWidth 16 <<< 8) ||| lo.setWidth 16

/-- Byte `k` of a bit-string of `len` bytes read as one number: bits `8(len-k)-1 : 8(len-1-k)`, byte 0 first
(30_encoding.md R48). -/
def stringByte (len w k : Nat) : Byte := BitVec.ofNat 8 (w >>> (8 * (len - 1 - k)))

/-- All bytes of such a bit-string, in frame order (R48). -/
def stringBytes (len w : Nat) : List Byte := (List.range len).map (stringByte len w)

/-- Command word `k` of a string of `len` command words, the first one leftmost, read as one number: how
opcode_table.json writes a transaction. DEDUCED, safe (log entry 6). -/
def stringWord (len w k : Nat) : CmdWord := BitVec.ofNat 19 (w >>> (19 * (len - 1 - k)))

/-- All command words of such a string, first one first. -/
def stringWords (len w : Nat) : List CmdWord := (List.range len).map (stringWord len w)

end Sys2Proof.Machine
end

