-- ==== Sys2Proof/Syntax.lean ====
section
/-! DEFINITION. The instructions: one constructor for each of the 23 rows of spec/opcode_table.json, in the table's
order. Ignored fields of a command word are no operands (30_encoding.md R50, R56). -/

namespace Sys2Proof

inductive Instr where
  /-- CRC.INIT (40_crc8.md R76). -/
  | crcInit
  /-- CRC.UPDATE d (R77). -/
  | crcUpdate (d : Byte)
  /-- CRC.READ (R78). -/
  | crcRead
  /-- CRC.CHECK c (R79). -/
  | crcCheck (c : Byte)
  /-- FRM.START hi, lo (41_frame.md R94). -/
  | frmStart (hi lo : Byte)
  /-- FRM.DATA d (R95). -/
  | frmData (d : Byte)
  /-- FRM.END (R96). -/
  | frmEnd
  /-- The reserved opcode 7 (30_encoding.md R55). -/
  | reserved7
  /-- CHECKSUM(B) (40_crc8.md R80). -/
  | checksum (bs : List Byte)
  /-- VERIFY(B, c) (R81). -/
  | verify (bs : List Byte) (c : Byte)
  /-- BUILD_WRITE((hi, lo), P) (41_frame.md R99). -/
  | buildWrite (hi lo : Byte) (payload : List Byte)
  /-- A frame of format F0: an address, no payload (30_encoding.md R46). -/
  | frameF0 (hi lo : Byte)
  /-- A frame of format F1: an address and a payload of at least one byte; its checksum is determined (R47). -/
  | frameF1 (hi lo : Byte) (payload : List Byte)
  /-- 42_commands.md R106. -/
  | readArticleCode
  /-- R107. -/
  | readSerialNumber
  /-- R108. -/
  | readCleaningInterval
  /-- R109. -/
  | startMeasurementPm
  /-- R110. -/
  | stopMeasurementPm
  /-- R111. -/
  | readMeasInterval
  /-- WRITE_MEAS_INTERVAL v (R112). -/
  | writeMeasInterval (v : Word16)
  /-- TRIGGER_CONT_MEAS p (R113). -/
  | triggerContMeas (p : Word16)
  /-- R114. -/
  | pollReady
  /-- R115. -/
  | readMeasResult
  deriving DecidableEq, Repr

end Sys2Proof
end

