-- ==== Sys2Proof/Machine/RegisterMap.lean ====
section
/-! DEFINITION. The register map of the sensor commands (42_commands.md section 1, 30_encoding.md R54), "fixed
constants, must be reproduced bit-exact". Every address stands here once; the decoder, the encoder and the meanings
of the frame macros read it from here. -/

namespace Sys2Proof.Machine

/-- A register address, high byte first (00_scope.md R5). -/
abbrev RegAddr := Byte × Byte

def articleCode : RegAddr := (0xD0, 0x25)
def serialNumber : RegAddr := (0xD0, 0x33)
def cleaningInterval : RegAddr := (0x80, 0x04)
/-- The address two rows share (42_commands.md R116). -/
def startMeasurement : RegAddr := (0x00, 0x10)
def stopMeasurement : RegAddr := (0x01, 0x04)
def measInterval : RegAddr := (0x46, 0x00)
def readyStatus : RegAddr := (0x02, 0x02)
def measResult : RegAddr := (0x03, 0x00)

/-- The payload of START_MEASUREMENT_PM, without the trailing checksum (42_commands.md R109, 90_conflicts.md C1). -/
def startPayload : List Byte := [0x03, 0x00]

/-- The payload a 16-bit operand is split into (20_memory.md R33). -/
def wordPayload (v : Word16) : List Byte := [hiByte v, loByte v]

/-- The address and the payload of the frame an instruction asks for; `none` for an instruction that is not one
whole frame (42_commands.md R105, 30_encoding.md R62). -/
def frameOf : Instr → Option (RegAddr × List Byte)
  | .buildWrite hi lo p => some ((hi, lo), p)
  | .frameF0 hi lo => some ((hi, lo), [])
  | .frameF1 hi lo p => some ((hi, lo), p)
  | .readArticleCode => some (articleCode, [])
  | .readSerialNumber => some (serialNumber, [])
  | .readCleaningInterval => some (cleaningInterval, [])
  | .startMeasurementPm => some (startMeasurement, startPayload)
  | .stopMeasurementPm => some (stopMeasurement, [])
  | .readMeasInterval => some (measInterval, [])
  | .writeMeasInterval v => some (measInterval, wordPayload v)
  | .triggerContMeas p => some (startMeasurement, wordPayload p)
  | .pollReady => some (readyStatus, [])
  | .readMeasResult => some (measResult, [])
  | .crcInit => none
  | .crcUpdate _ => none
  | .crcRead => none
  | .crcCheck _ => none
  | .frmStart _ _ => none
  | .frmData _ => none
  | .frmEnd => none
  | .reserved7 => none
  | .checksum _ => none
  | .verify _ _ => none

/-- The row of the map a frame belongs to: the more specific pattern first (42_commands.md R116), the general frame
formats for what no row of the map has. -/
def nameFrame (hi lo : Byte) (payload : List Byte) : Instr :=
  match payload with
  | [] =>
    if (hi, lo) = articleCode then .readArticleCode
    else if (hi, lo) = serialNumber then .readSerialNumber
    else if (hi, lo) = cleaningInterval then .readCleaningInterval
    else if (hi, lo) = stopMeasurement then .stopMeasurementPm
    else if (hi, lo) = measInterval then .readMeasInterval
    else if (hi, lo) = readyStatus then .pollReady
    else if (hi, lo) = measResult then .readMeasResult
    else .frameF0 hi lo
  | [p, q] =>
    if (hi, lo) = startMeasurement then
      if [p, q] = startPayload then .startMeasurementPm else .triggerContMeas (joinBytes p q)
    else if (hi, lo) = measInterval then .writeMeasInterval (joinBytes p q)
    else .frameF1 hi lo [p, q]
  | _ => .frameF1 hi lo payload

/-- What the map says of the reply to a frame macro. -/
inductive ReadLength where
  /-- A reply of so many bytes is read. -/
  | bytes (n : Nat)
  /-- No reply is read ("—" in the map). -/
  | noReply
  /-- The source does not say (91_not_in_source.md N20), or the instruction is no frame macro. -/
  | notStated
  deriving DecidableEq, Repr

/-- The "Read length" column (42_commands.md R117). Informative: no step reads it. -/
def readLength : Instr → ReadLength
  | .readArticleCode => .bytes 47
  | .readSerialNumber => .bytes 47
  | .readCleaningInterval => .bytes 6
  | .startMeasurementPm => .noReply
  | .stopMeasurementPm => .noReply
  | .readMeasInterval => .bytes 3
  | .writeMeasInterval _ => .notStated
  | .triggerContMeas _ => .noReply
  | .pollReady => .bytes 3
  | .readMeasResult => .bytes 18
  | .crcInit => .notStated
  | .crcUpdate _ => .notStated
  | .crcRead => .notStated
  | .crcCheck _ => .notStated
  | .frmStart _ _ => .notStated
  | .frmData _ => .notStated
  | .frmEnd => .notStated
  | .reserved7 => .notStated
  | .checksum _ => .notStated
  | .verify _ _ => .notStated
  | .buildWrite _ _ _ => .notStated
  | .frameF0 _ _ => .notStated
  | .frameF1 _ _ _ => .notStated

end Sys2Proof.Machine
end

