-- ==== Sys2Proof/Config.lean ====
section
/-! DEFINITION. What is fixed for the block: the hardwired CRC parameters (00_scope.md R4, 10_state.md R16) and the
one open parameter that reaches a model of the block, MAX_PAYLOAD (00_scope.md R5). The block has no free value: no
rule of the spec leaves a result undefined (93_implementation_defined.md section 2). -/

namespace Sys2Proof

/-- The parameters by which a CRC of eight bits is described. -/
structure Config.CrcParams where
  poly   : Byte
  init   : Byte
  xorOut : Byte
  refIn  : Bool
  refOut : Bool
  deriving DecidableEq, Repr

/-- `POLY` (R16). -/
def Config.poly : Byte := 0x31

/-- `POLY9`, the polynomial with "the implicit leading bit" (R16). -/
def Config.poly9 : BitVec 9 := 0x131

/-- `INIT` (R16). -/
def Config.init : Byte := 0xFF

/-- `XOROUT` (R16). -/
def Config.xorOut : Byte := 0x00

/-- The block's parameters together, `REFIN` and `REFOUT` false (R4). -/
def Config.crcParams : Config.CrcParams :=
  { poly := Config.poly, init := Config.init, xorOut := Config.xorOut, refIn := false, refOut := false }

/-- `CRC_WIDTH`, which is also the number of rounds of one byte (R4, R71). -/
def Config.crcWidth : Nat := 8

/-- `MAX_PAYLOAD` (R5): `none` is the spec's default, unbounded. It is read at the front door only
(93_implementation_defined.md U2); the block itself counts nothing. DESIGN CHOICE, safe (log entry 5). -/
def Config.maxPayload : Option Nat := none

end Sys2Proof
end

