-- ==== Sys2Proof/Machine/Crc.lean ====
section
/-! DEFINITION. The CRC unit's functions (40_crc8.md section 1), from the document: the round, the byte, the message
and the checksum, which are the definition of the block (93_implementation_defined.md U1), and the other forms the
spec gives of them: table, bit-serial, remainder of a polynomial division, and a CRC with its parameters as
arguments. -/

namespace Sys2Proof.Machine

/-- `crc_round` (R70): shift left, and XOR the polynomial in exactly when a 1 was shifted out. -/
def crcRound (c : Byte) : Byte :=
  if c.getLsbD 7 then (c <<< 1) ^^^ Config.poly else c <<< 1

/-- `n` rounds one after the other. -/
def crcRounds : Nat → Byte → Byte
  | 0, c => c
  | n + 1, c => crcRounds n (crcRound c)

/-- `crc_byte` (R71): the byte is XORed in, then exactly eight rounds follow. -/
def crcByte (c d : Byte) : Byte := crcRounds Config.crcWidth (c ^^^ d)

/-- `crc_from` (R72): the bytes of a message absorbed from left to right. -/
def crcFrom : Byte → List Byte → Byte
  | c, [] => c
  | c, b :: rest => crcFrom (crcByte c b) rest

/-- `crc_msg` (R72). -/
def crcMsg (bs : List Byte) : Byte := crcFrom Config.init bs

/-- The register as it is read out, `crc ^ XOROUT`, with no bit reversal (10_state.md R12). -/
def readOut (c : Byte) : Byte := c ^^^ Config.xorOut

/-- `checksum` (R72), defined for a message of any length. -/
def checksum (bs : List Byte) : Byte := readOut (crcMsg bs)

/-- Rows 0x00 to 0x30 of the table of 40_crc8.md R73. -/
def crcTableQ0 : List Byte :=
  [0x00, 0x31, 0x62, 0x53, 0xC4, 0xF5, 0xA6, 0x97, 0xB9, 0x88, 0xDB, 0xEA, 0x7D, 0x4C, 0x1F, 0x2E,
   0x43, 0x72, 0x21, 0x10, 0x87, 0xB6, 0xE5, 0xD4, 0xFA, 0xCB, 0x98, 0xA9, 0x3E, 0x0F, 0x5C, 0x6D,
   0x86, 0xB7, 0xE4, 0xD5, 0x42, 0x73, 0x20, 0x11, 0x3F, 0x0E, 0x5D, 0x6C, 0xFB, 0xCA, 0x99, 0xA8,
   0xC5, 0xF4, 0xA7, 0x96, 0x01, 0x30, 0x63, 0x52, 0x7C, 0x4D, 0x1E, 0x2F, 0xB8, 0x89, 0xDA, 0xEB]

/-- Rows 0x40 to 0x70 of the table of 40_crc8.md R73. -/
def crcTableQ1 : List Byte :=
  [0x3D, 0x0C, 0x5F, 0x6E, 0xF9, 0xC8, 0x9B, 0xAA, 0x84, 0xB5, 0xE6, 0xD7, 0x40, 0x71, 0x22, 0x13,
   0x7E, 0x4F, 0x1C, 0x2D, 0xBA, 0x8B, 0xD8, 0xE9, 0xC7, 0xF6, 0xA5, 0x94, 0x03, 0x32, 0x61, 0x50,
   0xBB, 0x8A, 0xD9, 0xE8, 0x7F, 0x4E, 0x1D, 0x2C, 0x02, 0x33, 0x60, 0x51, 0xC6, 0xF7, 0xA4, 0x95,
   0xF8, 0xC9, 0x9A, 0xAB, 0x3C, 0x0D, 0x5E, 0x6F, 0x41, 0x70, 0x23, 0x12, 0x85, 0xB4, 0xE7, 0xD6]

/-- Rows 0x80 to 0xB0 of the table of 40_crc8.md R73. -/
def crcTableQ2 : List Byte :=
  [0x7A, 0x4B, 0x18, 0x29, 0xBE, 0x8F, 0xDC, 0xED, 0xC3, 0xF2, 0xA1, 0x90, 0x07, 0x36, 0x65, 0x54,
   0x39, 0x08, 0x5B, 0x6A, 0xFD, 0xCC, 0x9F, 0xAE, 0x80, 0xB1, 0xE2, 0xD3, 0x44, 0x75, 0x26, 0x17,
   0xFC, 0xCD, 0x9E, 0xAF, 0x38, 0x09, 0x5A, 0x6B, 0x45, 0x74, 0x27, 0x16, 0x81, 0xB0, 0xE3, 0xD2,
   0xBF, 0x8E, 0xDD, 0xEC, 0x7B, 0x4A, 0x19, 0x28, 0x06, 0x37, 0x64, 0x55, 0xC2, 0xF3, 0xA0, 0x91]

/-- Rows 0xC0 to 0xF0 of the table of 40_crc8.md R73. -/
def crcTableQ3 : List Byte :=
  [0x47, 0x76, 0x25, 0x14, 0x83, 0xB2, 0xE1, 0xD0, 0xFE, 0xCF, 0x9C, 0xAD, 0x3A, 0x0B, 0x58, 0x69,
   0x04, 0x35, 0x66, 0x57, 0xC0, 0xF1, 0xA2, 0x93, 0xBD, 0x8C, 0xDF, 0xEE, 0x79, 0x48, 0x1B, 0x2A,
   0xC1, 0xF0, 0xA3, 0x92, 0x05, 0x34, 0x67, 0x56, 0x78, 0x49, 0x1A, 0x2B, 0xBC, 0x8D, 0xDE, 0xEF,
   0x82, 0xB3, 0xE0, 0xD1, 0x46, 0x77, 0x24, 0x15, 0x3B, 0x0A, 0x59, 0x68, 0xFF, 0xCE, 0x9D, 0xAC]

/-- The table `T` of R73, copied row by row. -/
def crcTable : List Byte := crcTableQ0 ++ crcTableQ1 ++ crcTableQ2 ++ crcTableQ3

/-- `crc_byte` by table (R73): `T[c ^ d]`. -/
def crcByteTable (c d : Byte) : Byte := crcTable.getD (c ^^^ d).toNat 0

/-- `crc_bit` (R74): a shift register fed with one message bit. -/
def crcBit (c : Byte) (x : Bool) : Byte :=
  if xor (c.getLsbD 7) x then (c <<< 1) ^^^ Config.poly else c <<< 1

/-- `crc_byte` bit by bit, `d[7]` first (R74). -/
def crcByteSerial (c d : Byte) : Byte :=
  [7, 6, 5, 4, 3, 2, 1, 0].foldl (fun t k => crcBit t (d.getLsbD k)) c

/-- Long division by the polynomial of R4: the terms of degree `8 + n - 1` down to 8 are cleared. -/
def gf2Reduce : Nat → BitVec 16 → BitVec 16
  | 0, v => v
  | n + 1, v =>
    gf2Reduce n (if v.getLsbD (8 + n) then v ^^^ (Config.poly9.setWidth 16 <<< n) else v)

/-- The remainder of a polynomial of degree at most 15 modulo x^8 + x^5 + x^4 + 1 (R87). -/
def gf2Mod (v : BitVec 16) : Byte := (gf2Reduce 8 v).setWidth 8

/-- A round with the polynomial as an argument. -/
def roundOf (poly c : Byte) : Byte :=
  if c.getLsbD 7 then (c <<< 1) ^^^ poly else c <<< 1

/-- `n` rounds with the polynomial as an argument. -/
def roundsOf (poly : Byte) : Nat → Byte → Byte
  | 0, c => c
  | n + 1, c => roundsOf poly n (roundOf poly c)

/-- A CRC of eight bits with its five parameters as arguments; 00_scope.md R4 fixes them for the block. It serves
to say that the block has those parameters and no others (95_test_vectors.md section 2.3, readings ruled out). -/
def checksumOf (p : Config.CrcParams) (bs : List Byte) : Byte :=
  let fed := if p.refIn then bs.map BitVec.reverse else bs
  let c := fed.foldl (fun t d => roundsOf p.poly 8 (t ^^^ d)) p.init
  (if p.refOut then c.reverse else c) ^^^ p.xorOut

end Sys2Proof.Machine
end

