-- ==== Sys2Proof/Machine/Frame.lean ====
section
/-! DEFINITION. The command frame as a function: the encoder of the document (41_frame.md section 1) and the frame
decoder the spec gives for round-trip laws (30_encoding.md R58). -/

namespace Sys2Proof.Machine

/-- `build_write` (R90): the checksum covers the payload only and is there only when the payload is not empty. -/
def buildWrite (hi lo : Byte) (payload : List Byte) : List Byte :=
  match payload with
  | [] => [hi, lo]
  | p :: ps => [hi, lo] ++ (p :: ps) ++ [checksum (p :: ps)]

/-- The frame decoder (R58): the address and the payload of a well-formed frame. -/
def splitFrame (frame : List Byte) : Option ((Byte × Byte) × List Byte) :=
  match frame with
  | [hi, lo] => some ((hi, lo), [])
  | hi :: lo :: p :: c :: rest =>
    let body := p :: c :: rest
    if body.getLast? = some (checksum body.dropLast) then some ((hi, lo), body.dropLast) else none
  | _ => none

end Sys2Proof.Machine
end

