-- ==== Sys2Proof/WellFormed.lean ====
section
/-! DEFINITION. Which terms of Instr are instructions. Every operand is a whole byte or a 16-bit word, so two checks
remain: a frame of format F1 has a payload (30_encoding.md R47), and no payload is longer than MAX_PAYLOAD where a
model fixes one (00_scope.md R5, 93_implementation_defined.md U2). -/

namespace Sys2Proof

/-- A payload passes a bound; `none` is unbounded (R5). -/
def payloadFits (bound : Option Nat) (payload : List Byte) : Bool :=
  match bound with
  | none => true
  | some n => payload.length ≤ n

/-- The payload an instruction sends, empty where it sends none. -/
def Instr.payload (i : Instr) : List Byte :=
  match Machine.frameOf i with
  | some (_, p) => p
  | none => []

/-- The check of R47: format F1 is used when the payload has at least one byte. -/
def Instr.formatOk : Instr → Bool
  | .frameF1 _ _ p => !p.isEmpty
  | .crcInit => true
  | .crcUpdate _ => true
  | .crcRead => true
  | .crcCheck _ => true
  | .frmStart _ _ => true
  | .frmData _ => true
  | .frmEnd => true
  | .reserved7 => true
  | .checksum _ => true
  | .verify _ _ => true
  | .buildWrite _ _ _ => true
  | .frameF0 _ _ => true
  | .readArticleCode => true
  | .readSerialNumber => true
  | .readCleaningInterval => true
  | .startMeasurementPm => true
  | .stopMeasurementPm => true
  | .readMeasInterval => true
  | .writeMeasInterval _ => true
  | .triggerContMeas _ => true
  | .pollReady => true
  | .readMeasResult => true

/-- Well-formed under a given MAX_PAYLOAD. -/
def Instr.wellFormedUnder (bound : Option Nat) (i : Instr) : Bool :=
  i.formatOk && payloadFits bound i.payload

/-- Well-formed. -/
def Instr.wellFormed (i : Instr) : Bool := i.wellFormedUnder Config.maxPayload

end Sys2Proof
end

