-- ==== Sys2Proof/Decode.lean ====
section
/-! DEFINITION. Decoding and encoding. There are two encodings (30_encoding.md R45): the command word of 19 bits,
which the command port takes, and the command frame, whose decoder R58 gives. A transaction is its list of command
words (R61). Decoding is total: what is no instruction is rejected by name. -/

namespace Sys2Proof

open Machine

/-- What the host hands over in one go: a command word; the command words of a transaction; or a frame macro named
by the frame it asks for. DESIGN CHOICE, safe (log entries 6 and 7). -/
inductive Input where
  | word (w : CmdWord)
  | sequence (ws : List CmdWord)
  | frame (bytes : List Byte)
  deriving DecidableEq, Repr

/-- Why an input is no instruction. -/
inductive DecodeError where
  /-- The command words are not those of a transaction of 30_encoding.md R61. -/
  | notATransaction (ws : List CmdWord)
  /-- The bytes are not a well-formed frame (R58). -/
  | notAFrame (bytes : List Byte)
  /-- The payload is longer than a fixed MAX_PAYLOAD (00_scope.md R5). -/
  | payloadTooLong (payload : List Byte)
  deriving DecidableEq, Repr

/-- The command opcode map (30_encoding.md R53): only `op` selects, ignored fields are not examined (R56). The last
case is `op = 7`, the only one left of three bits (R55). -/
def decodeWord (w : CmdWord) : Instr :=
  match (fieldOp w).toNat with
  | 0 => .crcInit
  | 1 => .crcUpdate (fieldB w)
  | 2 => .crcRead
  | 3 => .crcCheck (fieldB w)
  | 4 => .frmStart (fieldA w) (fieldB w)
  | 5 => .frmData (fieldB w)
  | 6 => .frmEnd
  | _ => .reserved7

/-- The data bytes of the CRC.UPDATE commands a list begins with, and what is left of it. -/
def takeUpdates : List Instr → List Byte × List Instr
  | .crcUpdate d :: rest => let r := takeUpdates rest; (d :: r.1, r.2)
  | rest => ([], rest)

/-- The payload bytes of the FRM.DATA commands a list begins with, and what is left of it. -/
def takeData : List Instr → List Byte × List Instr
  | .frmData d :: rest => let r := takeData rest; (d :: r.1, r.2)
  | rest => ([], rest)

/-- The transaction a list of commands is (30_encoding.md R61). -/
def transactionOf : List Instr → Option Instr
  | .crcInit :: rest =>
    match takeUpdates rest with
    | (bs, [.crcRead]) => some (.checksum bs)
    | (bs, [.crcCheck c]) => some (.verify bs c)
    | _ => none
  | .frmStart hi lo :: rest =>
    match takeData rest with
    | (payload, [.frmEnd]) => some (.buildWrite hi lo payload)
    | _ => none
  | _ => none

/-- The front door: a payload over a fixed MAX_PAYLOAD is turned away (93_implementation_defined.md U2). -/
def frontDoor (i : Instr) : Except DecodeError Instr :=
  if payloadFits Config.maxPayload i.payload then .ok i else .error (.payloadTooLong i.payload)

/-- A list of command words that is a transaction. -/
def decodeSequence (ws : List CmdWord) : Except DecodeError Instr :=
  match transactionOf (ws.map decodeWord) with
  | some i => frontDoor i
  | none => .error (.notATransaction ws)

/-- A well-formed frame (30_encoding.md R58), under its name in the register map (42_commands.md R116). -/
def decodeFrame (bytes : List Byte) : Except DecodeError Instr :=
  match splitFrame bytes with
  | some ((hi, lo), payload) => frontDoor (nameFrame hi lo payload)
  | none => .error (.notAFrame bytes)

/-- The decoder. -/
def decode : Input → Except DecodeError Instr
  | .word w => .ok (decodeWord w)
  | .sequence ws => decodeSequence ws
  | .frame bytes => decodeFrame bytes

/-- What an instruction whose bits the opcode table numbers is, as an input: 19 bits are a command word, 16 and 40
bits a frame written by 30_encoding.md R48, 76 bits four command words. Widths in whole bytes are taken too. -/
def tableInput (nbits w : Nat) : Option Input :=
  if nbits = 19 ∨ nbits = 24 then
    if w < 2 ^ 19 then some (.word (BitVec.ofNat 19 w)) else none
  else if nbits = 16 then
    if w < 2 ^ 16 then some (.frame (stringBytes 2 w)) else none
  else if nbits = 40 then
    if w < 2 ^ 40 then some (.frame (stringBytes 5 w)) else none
  else if nbits = 76 ∨ nbits = 80 then
    if w < 2 ^ 76 then some (.sequence (stringWords 4 w)) else none
  else none

/-- The instruction the decoder reads from an instruction whose bits are `w`, numbered as spec/opcode_table.json
numbers them. -/
def decodeTableWord (nbits w : Nat) : Option Instr :=
  match tableInput nbits w with
  | some x => (decode x).toOption
  | none => none

/-- The command words of BUILD_WRITE (30_encoding.md R61). -/
def frameWords (reg : RegAddr) (payload : List Byte) : List CmdWord :=
  packWord 4 reg.1 reg.2 :: (payload.map (packWord 5 0) ++ [packWord 6 0 0])

/-- The canonical command words of an instruction, ignored fields zero (30_encoding.md R53, R56, R61). A frame
format or a frame macro has those of its BUILD_WRITE (R62). -/
def commandWords : Instr → List CmdWord
  | .crcInit => [packWord 0 0 0]
  | .crcUpdate d => [packWord 1 0 d]
  | .crcRead => [packWord 2 0 0]
  | .crcCheck c => [packWord 3 0 c]
  | .frmStart hi lo => [packWord 4 hi lo]
  | .frmData d => [packWord 5 0 d]
  | .frmEnd => [packWord 6 0 0]
  | .reserved7 => [packWord 7 0 0]
  | .checksum bs => packWord 0 0 0 :: (bs.map (packWord 1 0) ++ [packWord 2 0 0])
  | .verify bs c => packWord 0 0 0 :: (bs.map (packWord 1 0) ++ [packWord 3 0 c])
  | .buildWrite hi lo p => frameWords (hi, lo) p
  | .frameF0 hi lo => frameWords (hi, lo) []
  | .frameF1 hi lo p => frameWords (hi, lo) p
  | .readArticleCode => frameWords articleCode []
  | .readSerialNumber => frameWords serialNumber []
  | .readCleaningInterval => frameWords cleaningInterval []
  | .startMeasurementPm => frameWords startMeasurement startPayload
  | .stopMeasurementPm => frameWords stopMeasurement []
  | .readMeasInterval => frameWords measInterval []
  | .writeMeasInterval v => frameWords measInterval (wordPayload v)
  | .triggerContMeas p => frameWords startMeasurement (wordPayload p)
  | .pollReady => frameWords readyStatus []
  | .readMeasResult => frameWords measResult []

/-- The frame an instruction asks for, as bytes (41_frame.md R90); empty where it asks for none. -/
def frameBytes (i : Instr) : List Byte :=
  match frameOf i with
  | some ((hi, lo), p) => Machine.buildWrite hi lo p
  | none => []

/-- The encoder: the form in which opcode_table.json gives the row. -/
def encode : Instr → Input
  | .crcInit => .word (packWord 0 0 0)
  | .crcUpdate d => .word (packWord 1 0 d)
  | .crcRead => .word (packWord 2 0 0)
  | .crcCheck c => .word (packWord 3 0 c)
  | .frmStart hi lo => .word (packWord 4 hi lo)
  | .frmData d => .word (packWord 5 0 d)
  | .frmEnd => .word (packWord 6 0 0)
  | .reserved7 => .word (packWord 7 0 0)
  | .checksum bs => .sequence (commandWords (.checksum bs))
  | .verify bs c => .sequence (commandWords (.verify bs c))
  | .buildWrite hi lo p => .sequence (commandWords (.buildWrite hi lo p))
  | .frameF0 hi lo => .frame (frameBytes (.frameF0 hi lo))
  | .frameF1 hi lo p => .frame (frameBytes (.frameF1 hi lo p))
  | .readArticleCode => .frame (frameBytes .readArticleCode)
  | .readSerialNumber => .frame (frameBytes .readSerialNumber)
  | .readCleaningInterval => .frame (frameBytes .readCleaningInterval)
  | .startMeasurementPm => .frame (frameBytes .startMeasurementPm)
  | .stopMeasurementPm => .frame (frameBytes .stopMeasurementPm)
  | .readMeasInterval => .frame (frameBytes .readMeasInterval)
  | .writeMeasInterval v => .frame (frameBytes (.writeMeasInterval v))
  | .triggerContMeas p => .frame (frameBytes (.triggerContMeas p))
  | .pollReady => .frame (frameBytes .pollReady)
  | .readMeasResult => .frame (frameBytes .readMeasResult)

/-- How many bits an input has (30_encoding.md R59). -/
def Input.bitLength : Input → Nat
  | .word _ => 19
  | .sequence ws => 19 * ws.length
  | .frame bytes => 8 * bytes.length

end Sys2Proof
end

