-- ==== Sys2Proof/Machine/State.lean ====
section
/-! DEFINITION. The state (10_state.md section 1): the five state variables of the block, the two output histories a
model records, and the model's own two fields, `cuts` and `port`. There is no memory (20_memory.md R30) and no
program counter (10_state.md R17). -/

namespace Sys2Proof.Machine

/-- `phase` (10_state.md R13): IDLE = 0, OPEN = 1. -/
inductive Phase where
  /-- IDLE: no frame open. -/
  | idle
  /-- OPEN: FRM.START has been executed and FRM.END has not. -/
  | opened
  deriving DecidableEq, Repr

/-- `err_code` (10_state.md R15, 60_exceptions.md R128). The value 3 is never produced and has no constructor, as
93_implementation_defined.md U13 allows. DESIGN CHOICE, safe (log entry 4). -/
inductive ErrCode where
  /-- 0 NONE. -/
  | none
  /-- 1 ILLEGAL_OP. -/
  | illegalOp
  /-- 2 SEQ_ERROR. -/
  | seqError
  deriving DecidableEq, Repr

/-- An event of the `tx` history (10_state.md section 1). -/
inductive TxEvent where
  | txByte (b : Byte)
  | txEnd
  deriving DecidableEq, Repr

/-- An event of the `rsp` history (10_state.md section 1). -/
inductive RspEvent where
  | rspCrc (v : Byte)
  | rspMatch (m : Bool)
  deriving DecidableEq, Repr

/-- What the outside does next: it issues an input on the command port (20_memory.md R31) or resets the block
(70_reset_and_hazards.md R145). -/
inductive PortEvent where
  | reset
  | issue (x : Input)
  deriving DecidableEq, Repr

structure State where
  /-- The 8-bit CRC register (R10). -/
  crc : Byte
  /-- Whether a frame is open (R13). -/
  phase : Phase
  /-- Whether the open frame has a payload byte (R14). -/
  nonempty : Bool
  /-- The sticky fault flag (R15). -/
  err : Bool
  /-- The cause of the first fault (R15). -/
  errCode : ErrCode
  /-- The output history `tx`, first event first (20_memory.md R39). -/
  tx : List TxEvent
  /-- The output history `rsp`, first event first (R39). -/
  rsp : List RspEvent
  /-- The model's own: the length of `tx` at each reset (70_reset_and_hazards.md R146). DESIGN CHOICE, safe
  (log entry 3). -/
  cuts : List Nat
  /-- The model's own: what the outside has yet to do, oldest first. DESIGN CHOICE, safe (log entry 1). -/
  port : List PortEvent
  deriving DecidableEq, Repr

/-- The state after reset (R23); "the histories `tx` and `rsp` of a model start empty", and so do the model's own
fields (log entries 1 and 3). -/
def State.reset : State :=
  { crc := 0xFF, phase := .idle, nonempty := false, err := false, errCode := .none,
    tx := [], rsp := [], cuts := [], port := [] }

/-- Reasons for the machine to stop with a fault: none. ILLEGAL_OP and SEQ_ERROR are taken, as next states
(60_exceptions.md R134), and "the step function is total on every state and every 19-bit command word"
(93_implementation_defined.md section 2). -/
inductive Fault where
  deriving DecidableEq, Repr

/-- Reasons for having no meaning. -/
inductive Refusal where
  /-- Raised by an arm of exec for an instruction that has no meaning yet; no arm does. Safe. -/
  | notModelled (mnemonic : String)
  /-- Raised by `rejectInput` when the host hands over bytes that are no well-formed frame (30_encoding.md R58), or a
  payload over a fixed MAX_PAYLOAD (00_scope.md R5), while `err` is 0: there is no instruction to run. Safe. -/
  | notAnInstruction (e : DecodeError)
  deriving DecidableEq, Repr

end Sys2Proof.Machine
end

