-- ==== Sys2Proof/Machine/Flags.lean ====
section
/-! DEFINITION. The flags: the bits of `phase`, `err` and `err_code` as a host sees them (10_state.md section 1,
20_memory.md R31), the verdict bit of CRC.CHECK (40_crc8.md R79), the phase each command needs (60_exceptions.md
R129) and the test of FRM.END on `nonempty` (10_state.md R14). -/

namespace Sys2Proof.Machine

/-- The bit of `phase` (R13). -/
def Phase.bit : Phase → BitVec 1
  | .idle => 0
  | .opened => 1

/-- The two bits of `err_code` (R15, R128). -/
def ErrCode.bits : ErrCode → BitVec 2
  | .none => 0
  | .illegalOp => 1
  | .seqError => 2

/-- The status levels: `err` and `err_code` (20_memory.md R31). How they reach the host is StatusPresentation, which
is not modelled (93_implementation_defined.md U16; log entry 9). -/
def State.status (s : State) : BitVec 1 × BitVec 2 := (BitVec.ofBool s.err, s.errCode.bits)

/-- The verdict of CRC.CHECK: all eight bits of the raw register agree (40_crc8.md R79). -/
def matchFlag (crc c : Byte) : Bool := crc == c

/-- Whether a frame gets its trailing checksum: "present only when payload is non-empty" (10_state.md R14). -/
def hasChecksum (s : State) : Bool := s.nonempty

/-- The phase in which the four CRC commands and FRM.START are legal (R129). -/
def phaseOutsideFrame : Phase := .idle

/-- The phase in which FRM.DATA and FRM.END are legal (R129). -/
def phaseInsideFrame : Phase := .opened

end Sys2Proof.Machine
end

