-- ==== Sys2Proof/Machine/Ops.lean ====
section
/-! DEFINITION. The named operations on the state: the writes of the state variables, the output primitives Emit,
EmitEnd and Respond (00_scope.md section 7), taking a fault (60_exceptions.md R134), reset, which is the only return
from one (R136), the checks every command goes through (R133), and the command port. -/

namespace Sys2Proof.Machine

/-- `crc <- v`. -/
def setCrc (v : Byte) (s : State) : State := { s with crc := v }

/-- `phase <- p`. -/
def setPhase (p : Phase) (s : State) : State := { s with phase := p }

/-- `nonempty <- n`. -/
def setNonempty (n : Bool) (s : State) : State := { s with nonempty := n }

/-- `Emit(b)`. -/
def emit (b : Byte) (s : State) : State := { s with tx := s.tx ++ [.txByte b] }

/-- `EmitEnd`. -/
def emitEnd (s : State) : State := { s with tx := s.tx ++ [.txEnd] }

/-- `Respond(e)`. -/
def respond (e : RspEvent) (s : State) : State := { s with rsp := s.rsp ++ [e] }

/-- Fault entry (60_exceptions.md R134): `err <- 1`, `err_code <- k`, nothing else. -/
def takeFault (k : ErrCode) (s : State) : State := { s with err := true, errCode := k }

/-- Reset (70_reset_and_hazards.md R145, R147): every state variable at its value of 10_state.md R23, nothing
appended to or taken from the histories. The place in `tx` is marked, so that an open frame can be cut off (R146). -/
def resetEvent (s : State) : State :=
  { s with
    crc := State.reset.crc
    phase := State.reset.phase
    nonempty := State.reset.nonempty
    err := State.reset.err
    errCode := State.reset.errCode
    cuts := s.cuts ++ [s.tx.length] }

/-- Nothing has effect while `err` is 1 (60_exceptions.md R135); this check comes first (R133). -/
def whenLive (effect : State → State) (s : State) : State := if s.err then s else effect s

/-- The two checks of a defined command (R133): `err`, then its phase, which gives SEQ_ERROR (R129, R131). -/
def whenLegal (need : Phase) (effect : State → State) : State → State :=
  whenLive fun s => if s.phase = need then effect s else takeFault .seqError s

/-- Commands one after the other, in the order issued (00_scope.md R8). -/
def runAll (cmds : List (State → State)) (s : State) : State := cmds.foldl (fun t f => f t) s

/-- The outside puts an input at the head of the command port. -/
def placeInput (x : Input) (s : State) : State := { s with port := .issue x :: s.port }

/-- The oldest event of the port, and the state without it. -/
def takePort (s : State) : Option (PortEvent × State) :=
  match s.port with
  | [] => none
  | e :: rest => some (e, { s with port := rest })

/-- An input that is no instruction. While `err` is 1 it has no effect, as nothing has (R133, R135). Command words
that are no transaction are command words all the same: they are issued one by one (10_state.md R17). What is no
command word and no frame is turned away by name. DESIGN CHOICE, safe (log entry 8). -/
def rejectInput (e : DecodeError) (s : State) : Host.Outcome State Fault Refusal :=
  if s.err then .next s
  else
    match e with
    | .notATransaction ws => .next { s with port := ws.map (fun w => .issue (.word w)) ++ s.port }
    | .notAFrame bytes => .refused (.notAnInstruction (.notAFrame bytes))
    | .payloadTooLong payload => .refused (.notAnInstruction (.payloadTooLong payload))

end Sys2Proof.Machine
end

