-- ==== Sys2Proof/Machine/CrcUnit.lean ====
section
/-! DEFINITION. The CRC unit: the four commands of 40_crc8.md section 2, each as an effect on the state (`do…`) and as
the meaning of its instruction (`exec…`). -/

namespace Sys2Proof.Machine

/-- CRC.INIT (R76). -/
def doCrcInit : State → State := whenLegal phaseOutsideFrame (setCrc Config.init)

/-- CRC.UPDATE d (R77). -/
def doCrcUpdate (d : Byte) : State → State :=
  whenLegal phaseOutsideFrame fun s => setCrc (crcByte s.crc d) s

/-- CRC.READ (R78): the register is not changed. -/
def doCrcRead : State → State :=
  whenLegal phaseOutsideFrame fun s => respond (.rspCrc (readOut s.crc)) s

/-- CRC.CHECK c (R79): a mismatch is a result, not a fault. -/
def doCrcCheck (c : Byte) : State → State :=
  whenLegal phaseOutsideFrame fun s => respond (.rspMatch (matchFlag s.crc c)) s

def execCrcInit (s : State) : Host.Outcome State Fault Refusal := .next (doCrcInit s)

def execCrcUpdate (d : Byte) (s : State) : Host.Outcome State Fault Refusal := .next (doCrcUpdate d s)

def execCrcRead (s : State) : Host.Outcome State Fault Refusal := .next (doCrcRead s)

def execCrcCheck (c : Byte) (s : State) : Host.Outcome State Fault Refusal := .next (doCrcCheck c s)

end Sys2Proof.Machine
end

