-- ==== Sys2Proof/Machine/FrmUnit.lean ====
section
/-! DEFINITION. The FRM unit: the three commands of 41_frame.md section 2, and the reserved opcode of the command
port. -/

namespace Sys2Proof.Machine

/-- FRM.START hi, lo (R94): the address bytes are emitted, not stored, and do not enter the checksum. -/
def doFrmStart (hi lo : Byte) : State → State :=
  whenLegal phaseOutsideFrame fun s =>
    setPhase .opened (setNonempty false (setCrc Config.init (emit lo (emit hi s))))

/-- FRM.DATA d (R95). -/
def doFrmData (d : Byte) : State → State :=
  whenLegal phaseInsideFrame fun s => setNonempty true (setCrc (crcByte s.crc d) (emit d s))

/-- FRM.END (R96): the checksum only when there was a payload, `TxEnd` always. -/
def doFrmEnd : State → State :=
  whenLegal phaseInsideFrame fun s =>
    setPhase .idle (emitEnd (if hasChecksum s then emit (readOut s.crc) s else s))

/-- The reserved opcode 7 takes ILLEGAL_OP in either phase (30_encoding.md R55, 60_exceptions.md R130). -/
def doReserved7 : State → State := whenLive (takeFault .illegalOp)

def execFrmStart (hi lo : Byte) (s : State) : Host.Outcome State Fault Refusal := .next (doFrmStart hi lo s)

def execFrmData (d : Byte) (s : State) : Host.Outcome State Fault Refusal := .next (doFrmData d s)

def execFrmEnd (s : State) : Host.Outcome State Fault Refusal := .next (doFrmEnd s)

def execReserved7 (s : State) : Host.Outcome State Fault Refusal := .next (doReserved7 s)

end Sys2Proof.Machine
end

