-- ==== Sys2Proof/Machine/Transactions.lean ====
section
/-! DEFINITION. The transactions: fixed command sequences (30_encoding.md R61), run from the first command to the last
from whatever state the block is in. -/

namespace Sys2Proof.Machine

/-- CHECKSUM(B) (40_crc8.md R80). -/
def doChecksum (bs : List Byte) : State → State :=
  runAll (doCrcInit :: (bs.map doCrcUpdate ++ [doCrcRead]))

/-- VERIFY(B, c) (R81). -/
def doVerify (bs : List Byte) (c : Byte) : State → State :=
  runAll (doCrcInit :: (bs.map doCrcUpdate ++ [doCrcCheck c]))

/-- BUILD_WRITE((hi, lo), P) (41_frame.md R99). -/
def doBuildWrite (hi lo : Byte) (payload : List Byte) : State → State :=
  runAll (doFrmStart hi lo :: (payload.map doFrmData ++ [doFrmEnd]))

def execChecksum (bs : List Byte) (s : State) : Host.Outcome State Fault Refusal := .next (doChecksum bs s)

def execVerify (bs : List Byte) (c : Byte) (s : State) : Host.Outcome State Fault Refusal := .next (doVerify bs c s)

def execBuildWrite (hi lo : Byte) (payload : List Byte) (s : State) : Host.Outcome State Fault Refusal :=
  .next (doBuildWrite hi lo payload s)

end Sys2Proof.Machine
end

