-- ==== Sys2Proof/Machine/FrameMacros.lean ====
section
/-! DEFINITION. The frame formats and the frame macros: each is the BUILD_WRITE that produces its frame "and nothing
more" (42_commands.md R105; 30_encoding.md R46, R47, R62). -/

namespace Sys2Proof.Machine

/-- The BUILD_WRITE of a row of the register map (R105). -/
def writeFrame (reg : RegAddr) (payload : List Byte) (s : State) : Host.Outcome State Fault Refusal :=
  .next (doBuildWrite reg.1 reg.2 payload s)

/-- FRAME.F0, produced by BUILD_WRITE((hi, lo), []) (30_encoding.md R46). -/
def execFrameF0 (hi lo : Byte) (s : State) : Host.Outcome State Fault Refusal := writeFrame (hi, lo) [] s

/-- FRAME.F1, produced by BUILD_WRITE((hi, lo), P) (R47). -/
def execFrameF1 (hi lo : Byte) (payload : List Byte) (s : State) : Host.Outcome State Fault Refusal :=
  writeFrame (hi, lo) payload s

/-- 42_commands.md R106. -/
def execReadArticleCode (s : State) : Host.Outcome State Fault Refusal := writeFrame articleCode [] s

/-- R107. -/
def execReadSerialNumber (s : State) : Host.Outcome State Fault Refusal := writeFrame serialNumber [] s

/-- R108. -/
def execReadCleaningInterval (s : State) : Host.Outcome State Fault Refusal := writeFrame cleaningInterval [] s

/-- R109. -/
def execStartMeasurementPm (s : State) : Host.Outcome State Fault Refusal :=
  writeFrame startMeasurement startPayload s

/-- R110. -/
def execStopMeasurementPm (s : State) : Host.Outcome State Fault Refusal := writeFrame stopMeasurement [] s

/-- R111. -/
def execReadMeasInterval (s : State) : Host.Outcome State Fault Refusal := writeFrame measInterval [] s

/-- R112. -/
def execWriteMeasInterval (v : Word16) (s : State) : Host.Outcome State Fault Refusal :=
  writeFrame measInterval (wordPayload v) s

/-- R113. -/
def execTriggerContMeas (p : Word16) (s : State) : Host.Outcome State Fault Refusal :=
  writeFrame startMeasurement (wordPayload p) s

/-- R114. -/
def execPollReady (s : State) : Host.Outcome State Fault Refusal := writeFrame readyStatus [] s

/-- R115. -/
def execReadMeasResult (s : State) : Host.Outcome State Fault Refusal := writeFrame measResult [] s

end Sys2Proof.Machine
end

