-- ==== Sys2Proof/Machine/Dispatch.lean ====
section
/-! DEFINITION. exec: one arm per constructor of Instr, each one call of that instruction's meaning. -/

namespace Sys2Proof.Machine

def exec (i : Instr) (s : State) : Host.Outcome State Fault Refusal :=
  match i with
  | .crcInit => Sys2Proof.Machine.execCrcInit s
  | .crcUpdate d => Sys2Proof.Machine.execCrcUpdate d s
  | .crcRead => Sys2Proof.Machine.execCrcRead s
  | .crcCheck c => Sys2Proof.Machine.execCrcCheck c s
  | .frmStart hi lo => Sys2Proof.Machine.execFrmStart hi lo s
  | .frmData d => Sys2Proof.Machine.execFrmData d s
  | .frmEnd => Sys2Proof.Machine.execFrmEnd s
  | .reserved7 => Sys2Proof.Machine.execReserved7 s
  | .checksum bs => Sys2Proof.Machine.execChecksum bs s
  | .verify bs c => Sys2Proof.Machine.execVerify bs c s
  | .buildWrite hi lo payload => Sys2Proof.Machine.execBuildWrite hi lo payload s
  | .frameF0 hi lo => Sys2Proof.Machine.execFrameF0 hi lo s
  | .frameF1 hi lo payload => Sys2Proof.Machine.execFrameF1 hi lo payload s
  | .readArticleCode => Sys2Proof.Machine.execReadArticleCode s
  | .readSerialNumber => Sys2Proof.Machine.execReadSerialNumber s
  | .readCleaningInterval => Sys2Proof.Machine.execReadCleaningInterval s
  | .startMeasurementPm => Sys2Proof.Machine.execStartMeasurementPm s
  | .stopMeasurementPm => Sys2Proof.Machine.execStopMeasurementPm s
  | .readMeasInterval => Sys2Proof.Machine.execReadMeasInterval s
  | .writeMeasInterval v => Sys2Proof.Machine.execWriteMeasInterval v s
  | .triggerContMeas p => Sys2Proof.Machine.execTriggerContMeas p s
  | .pollReady => Sys2Proof.Machine.execPollReady s
  | .readMeasResult => Sys2Proof.Machine.execReadMeasResult s

end Sys2Proof.Machine
end

