-- ==== Sys2Proof/Machine/Step.lean ====
section
/-! DEFINITION. One step: the oldest event of the port is taken, and is a reset, or an input that is decoded and run
(00_scope.md R7). With nothing on the port the block waits (70_reset_and_hazards.md R148, R154; log entry 2). -/

namespace Sys2Proof.Machine

def step (s : State) : Host.Outcome State Fault Refusal :=
  match takePort s with
  | none => .next s
  | some (.reset, s') => .next (resetEvent s')
  | some (.issue x, s') =>
    match decode x with
    | .ok i => exec i s'
    | .error e => rejectInput e s'

/-- `s` with the instruction of those bits, numbered as spec/opcode_table.json numbers them, at the head of the
command port, where the next step takes its input (log entry 1). -/
def State.withFetchWord (s : State) (nbits w : Nat) : State :=
  match tableInput nbits w with
  | some x => placeInput x s
  | none => s

end Sys2Proof.Machine
end

