-- ==== Sys2Proof/Machine/Observe.lean ====
section
/-! DEFINITION. How a consumer of `tx` reads it: only a run of bytes that `TxEnd` closes is a frame (20_memory.md R41),
and a run that a reset cuts off is discarded (70_reset_and_hazards.md R146). -/

namespace Sys2Proof.Machine

/-- The run of bytes not yet closed, as it stands at a place in `tx`: nothing of it is left where a reset fell. -/
def cutAt (cuts : List Nat) (pos : Nat) (run : List Byte) : List Byte := if pos ∈ cuts then [] else run

/-- The complete frames of a piece of `tx` that begins at place `pos` with `run` not yet closed, and the run left
unclosed at its end. -/
def scanTx (cuts : List Nat) : Nat → List Byte → List TxEvent → List (List Byte) × List Byte
  | pos, run, [] => ([], cutAt cuts pos run)
  | pos, run, .txByte b :: rest => scanTx cuts (pos + 1) (cutAt cuts pos run ++ [b]) rest
  | pos, run, .txEnd :: rest =>
    let r := scanTx cuts (pos + 1) [] rest
    (cutAt cuts pos run :: r.1, r.2)

/-- The frames a consumer takes from `tx` (R41, R146). -/
def State.frames (s : State) : List (List Byte) := (scanTx s.cuts 0 [] s.tx).1

/-- The bytes of `tx` that no `TxEnd` has closed and no reset cut off. -/
def State.openRun (s : State) : List Byte := (scanTx s.cuts 0 [] s.tx).2

end Sys2Proof.Machine
end

