-- ==== Sys2Proof/Safety.lean ====
section
/-! DEFINITION. What counts as a safe run, in the terms claims use: a transaction boundary, the invariant of the
reachable states (10_state.md R24), and the language of the legal command sequences (60_exceptions.md R129). -/

namespace Sys2Proof

open Machine

/-- A transaction boundary: `err == 0` and `phase == IDLE` (10_state.md R21). The end of a transaction's run is one
(70_reset_and_hazards.md R154). -/
def Boundary (s : State) : Prop := s.err = false ∧ s.phase = .idle

/-- What R24 says of an open frame with the payload bytes so far, read from the unclosed bytes of `tx`. -/
def OpenFrameOk (s : State) : Prop :=
  ∃ hi lo payload, s.openRun = hi :: lo :: payload ∧ s.crc = crcMsg payload ∧ s.nonempty = !payload.isEmpty

/-- The invariant of the reachable states (R24; `err_code` is NONE exactly while `err` is 0, R15). The marks of the
resets are places in `tx`. -/
structure StateInv (s : State) : Prop where
  code : s.err = false ↔ s.errCode = .none
  marks : ∀ m ∈ s.cuts, m ≤ s.tx.length
  closed : s.err = false → s.phase = .idle → s.openRun = []
  frame : s.err = false → s.phase = .opened → OpenFrameOk s

/-- A command of the CRC unit. -/
def isCrcCommand : Instr → Bool
  | .crcInit => true
  | .crcUpdate _ => true
  | .crcRead => true
  | .crcCheck _ => true
  | .frmStart _ _ => false
  | .frmData _ => false
  | .frmEnd => false
  | .reserved7 => false
  | .checksum _ => false
  | .verify _ _ => false
  | .buildWrite _ _ _ => false
  | .frameF0 _ _ => false
  | .frameF1 _ _ _ => false
  | .readArticleCode => false
  | .readSerialNumber => false
  | .readCleaningInterval => false
  | .startMeasurementPm => false
  | .stopMeasurementPm => false
  | .readMeasInterval => false
  | .writeMeasInterval _ => false
  | .triggerContMeas _ => false
  | .pollReady => false
  | .readMeasResult => false

/-- The language `( CRC.INIT | CRC.UPDATE | CRC.READ | CRC.CHECK | FRM.START FRM.DATA* FRM.END )*` of R129. -/
inductive LegalSequence : List Instr → Prop where
  | nil : LegalSequence []
  | crc (c : Instr) (rest : List Instr) : isCrcCommand c = true → LegalSequence rest → LegalSequence (c :: rest)
  | frame (hi lo : Byte) (payload : List Byte) (rest : List Instr) :
      LegalSequence rest → LegalSequence (.frmStart hi lo :: (payload.map .frmData ++ .frmEnd :: rest))

/-- The word of a command on the command port, as an event of the port. -/
def issueWord (w : CmdWord) : PortEvent := .issue (.word w)

/-- An instruction that is one command word (30_encoding.md R53): the seven commands and the reserved opcode. The
others are transactions, frame formats and frame macros, each a sequence of commands. -/
def isCommandWord (i : Instr) : Bool :=
  match encode i with
  | .word _ => true
  | .sequence _ => false
  | .frame _ => false

/-- Instructions one after the other, stopping at the first that gives no next state. -/
def execAll : List Instr → State → Host.Outcome State Fault Refusal
  | [], s => .next s
  | i :: rest, s =>
    match exec i s with
    | .next t => execAll rest t
    | .fault r => .fault r
    | .refused r => .refused r

/-- `n` steps, stopping at the first that gives no next state. -/
def runSteps : Nat → State → Host.Outcome State Fault Refusal
  | 0, s => .next s
  | n + 1, s =>
    match step s with
    | .next t => runSteps n t
    | .fault r => .fault r
    | .refused r => .refused r

/-- The state after a command that is illegal in its phase, or reserved (60_exceptions.md R134). -/
def faulted (k : ErrCode) (s : State) : State := { s with err := true, errCode := k }

/-- `i` is encoded by the two bytes of a frame of format F0, expands to FRM.START and FRM.END, and at a transaction
boundary sends that frame (30_encoding.md R46, 42_commands.md R105). -/
def SendsAddressFrame (i : Instr) (hi lo : Byte) : Prop :=
  encode i = .frame [hi, lo] ∧
  commandWords i = [packWord 4 hi lo, 0x60000] ∧
  ∀ s, Boundary s →
    exec i s = .next { s with
      tx := s.tx ++ [.txByte hi, .txByte lo, .txEnd], crc := 0xFF, phase := .idle, nonempty := false }

/-- `i` is encoded by the five bytes of a frame of format F1 with two payload bytes and the checksum `c`, expands to
four commands, and at a transaction boundary sends that frame (30_encoding.md R47, 42_commands.md R105). -/
def SendsWordFrame (i : Instr) (hi lo p q c : Byte) : Prop :=
  encode i = .frame [hi, lo, p, q, c] ∧
  commandWords i = [packWord 4 hi lo, packWord 5 0 p, packWord 5 0 q, 0x60000] ∧
  ∀ s, Boundary s →
    exec i s = .next { s with
      tx := s.tx ++ [.txByte hi, .txByte lo, .txByte p, .txByte q, .txByte c, .txEnd],
      crc := c, phase := .idle, nonempty := true }

end Sys2Proof
end

