-- ==== Sys2Proof/Certificates/Slice0/Obligations.lean ====
section
/-! DEFINITION. The statements for the provers, each with the rule of spec/ it formalises. A rule that the spec itself
marks as derived is named in the docstring only, and the statement's basis is 'derived'. So it is where a statement
rests on a choice of the model: the docstring then names the log entry. -/

open Sys2Proof Sys2Proof.Machine

/-! ## The CRC unit's functions (40_crc8.md sections 1 and 4) -/

/-- The spec's R70: one round, the same in nine bits with the leading bit of the polynomial, and the rule's examples.
The shift to the left and the test of old bit 7 are what R70 marks '[from general knowledge, not in source]', and are
PRESUMED here (log entry 11): no rule of the source. -/
def Obligations.CrcRoundShiftsAndReduces : Prop :=
  (∀ c : Byte, crcRound c = if c.getLsbD 7 then (c <<< 1) ^^^ 0x31 else c <<< 1) ∧
  (∀ c : Byte, (crcRound c).setWidth 9 = (c.setWidth 9 <<< 1) ^^^ (if c.getLsbD 7 then 0x131 else 0)) ∧
  crcRound 0x00 = 0x00 ∧ crcRound 0x01 = 0x02 ∧ crcRound 0x40 = 0x80 ∧ crcRound 0x7F = 0xFE ∧
  crcRound 0x80 = 0x31 ∧ crcRound 0x98 = 0x01 ∧ crcRound 0xFF = 0xCF

/-- R71: XOR, then exactly eight rounds, and the rule's example. -/
def Obligations.CrcByteIsXorThenEightRounds : Prop :=
  (∀ c d : Byte, crcByte c d =
    crcRound (crcRound (crcRound (crcRound (crcRound (crcRound (crcRound (crcRound (c ^^^ d))))))))) ∧
  (0xFF ^^^ 0xBE : Byte) = 0x41 ∧ crcRound 0x41 = 0x82 ∧ crcRound 0x82 = 0x35 ∧ crcRound 0x35 = 0x6A ∧
  crcRound 0x6A = 0xD4 ∧ crcRound 0xD4 = 0x99 ∧ crcRound 0x99 = 0x03 ∧ crcRound 0x03 = 0x06 ∧
  crcRound 0x06 = 0x0C ∧ crcByte 0xFF 0xBE = 0x0C

/-- R72: the message function and the checksum, for messages of any length, left to right. -/
def Obligations.ChecksumAbsorbsLeftToRight : Prop :=
  (∀ c, crcFrom c [] = c) ∧
  (∀ c b rest, crcFrom c (b :: rest) = crcFrom (crcByte c b) rest) ∧
  (∀ c as bs, crcFrom c (as ++ bs) = crcFrom (crcFrom c as) bs) ∧
  (∀ bs, crcMsg bs = crcFrom 0xFF bs) ∧
  (∀ bs, checksum bs = crcMsg bs ^^^ 0x00) ∧
  (∀ bs, checksum bs = crcMsg bs)

/-- R73: `T[i] = crc_byte(0, i)`, 256 entries, and the table form equals the round form for all arguments. -/
def Obligations.CrcTableEqualsRounds : Prop :=
  crcTable.length = 256 ∧
  (∀ i : Byte, crcTable[i.toNat]? = some (crcByte 0x00 i)) ∧
  (∀ c d : Byte, crcByte c d = crcByteTable c d)

/-- The spec's R74, which it marks as derived: one message bit at a time, `d[7]` first. -/
def Obligations.CrcBitSerialEqualsRounds : Prop :=
  ∀ c d : Byte,
    crcByte c d =
      crcBit (crcBit (crcBit (crcBit (crcBit (crcBit (crcBit (crcBit c
        (d.getLsbD 7)) (d.getLsbD 6)) (d.getLsbD 5)) (d.getLsbD 4)) (d.getLsbD 3)) (d.getLsbD 2))
        (d.getLsbD 1)) (d.getLsbD 0) ∧
    crcByte c d = crcByteSerial c d

/-- R4: the block's checksum is the CRC of width 8 with these five parameters, for every message. -/
def Obligations.ChecksumHasTheFixedParameters : Prop :=
  Config.poly = 0x31 ∧ Config.poly9 = 0x131 ∧ Config.init = 0xFF ∧ Config.xorOut = 0x00 ∧
  Config.crcParams.refIn = false ∧ Config.crcParams.refOut = false ∧ Config.crcWidth = 8 ∧
  ∀ bs, checksum bs =
    checksumOf { poly := 0x31, init := 0xFF, xorOut := 0x00, refIn := false, refOut := false } bs

/-- The spec's R84 and R85: the document's 0xE3, the values the spec derives, the empty message, and two of the readings
that the document's value rules out. -/
def Obligations.ChecksumKnownValues : Prop :=
  checksum [0x00, 0x02] = 0xE3 ∧ checksum [0xBE, 0xEF] = 0x92 ∧ checksum [0x00, 0x00] = 0x81 ∧
  checksum [] = 0xFF ∧ checksum [0x03, 0x00] = 0xAC ∧
  checksumOf { Config.crcParams with refIn := true, refOut := true } [0x00, 0x02] = 0x3D ∧
  checksumOf { Config.crcParams with init := 0x00 } [0x00, 0x02] = 0x62

/-- The spec's R86, which it marks as derived: a message followed by its checksum has checksum 0, and absorbing a
received checksum gives 0 exactly when it is the right one. -/
def Obligations.ChecksumResidueIsZero : Prop :=
  (∀ bs, checksum (bs ++ [checksum bs]) = 0x00) ∧
  (∀ bs c, crcMsg (bs ++ [c]) = 0x00 ↔ checksum bs = c) ∧
  (∀ c : Byte, crcByte c c = 0x00)

/-- The spec's R87, which it marks as derived: linearity over GF(2), and the round and the byte as multiplication by x
and by x^8 modulo x^8 + x^5 + x^4 + 1. -/
def Obligations.CrcIsLinear : Prop :=
  (∀ a b : Byte, crcRound (a ^^^ b) = crcRound a ^^^ crcRound b) ∧
  (∀ a b d e : Byte, crcByte (a ^^^ b) (d ^^^ e) = crcByte a d ^^^ crcByte b e) ∧
  crcByte 0 0 = 0 ∧
  (∀ c : Byte, crcRound c = gf2Mod (c.setWidth 16 <<< 1)) ∧
  (∀ c d : Byte, crcByte c d = gf2Mod ((c ^^^ d).setWidth 16 <<< 8))

/-- The spec's R88, which it marks as derived: permutations in each argument, so that two messages of equal length that
differ in exactly one byte have different checksums. -/
def Obligations.OneByteChangeChangesChecksum : Prop :=
  Function.Bijective crcRound ∧
  (∀ d, Function.Bijective fun c => crcByte c d) ∧
  (∀ c, Function.Bijective fun d => crcByte c d) ∧
  ∀ (before after : List Byte) (x y : Byte), x ≠ y →
    checksum (before ++ x :: after) ≠ checksum (before ++ y :: after)

/-! ## Frames (41_frame.md section 1, 30_encoding.md section 2) -/

/-- R90 and R93: the frame, and that the address is outside its checksum. -/
def Obligations.BuildWriteFrameLayout : Prop :=
  (∀ hi lo, buildWrite hi lo [] = [hi, lo]) ∧
  (∀ hi lo payload, 1 ≤ payload.length →
    buildWrite hi lo payload = [hi, lo] ++ payload ++ [checksum payload]) ∧
  (∀ hi lo hi' lo' payload, (buildWrite hi lo payload).drop 2 = (buildWrite hi' lo' payload).drop 2)

/-- The spec's R91, which it marks as derived. -/
def Obligations.BuildWriteLength : Prop :=
  ∀ hi lo payload,
    (buildWrite hi lo payload).length = (if payload.length = 0 then 2 else payload.length + 3) ∧
    (buildWrite hi lo payload).length ≠ 0 ∧ (buildWrite hi lo payload).length ≠ 1 ∧
    (buildWrite hi lo payload).length ≠ 3

/-- The spec's R58, which it marks as derived: what is a well-formed frame, and that the decoder of frames undoes
`build_write` and nothing else. -/
def Obligations.FrameDecoderInvertsBuildWrite : Prop :=
  (∀ frame hi lo payload, splitFrame frame = some ((hi, lo), payload) ↔ frame = buildWrite hi lo payload) ∧
  (∀ frame : List Byte, (splitFrame frame).isSome = true ↔
    frame.length = 2 ∨
      (4 ≤ frame.length ∧ frame.getLast? = some (checksum (frame.drop 2).dropLast)))

/-- The spec's R152: a host that sends a payload with its checksum as payload gets a frame that ends in the checksum
and 0x00. -/
def Obligations.ChecksumSentAsPayloadEndsInZero : Prop :=
  ∀ hi lo payload, payload ≠ [] →
    buildWrite hi lo (payload ++ [checksum payload]) = [hi, lo] ++ payload ++ [checksum payload, 0x00]

/-! ## Encodings (30_encoding.md) -/

/-- R49: the fields of a command word; packing and reading the fields undo each other. -/
def Obligations.CommandWordFields : Prop :=
  (∀ (op : BitVec 3) (a b : Byte), (packWord op a b).toNat = op.toNat * 2 ^ 16 + a.toNat * 2 ^ 8 + b.toNat) ∧
  (∀ (op : BitVec 3) (a b : Byte),
    fieldOp (packWord op a b) = op ∧ fieldA (packWord op a b) = a ∧ fieldB (packWord op a b) = b) ∧
  (∀ w : CmdWord, packWord (fieldOp w) (fieldA w) (fieldB w) = w)

/-- R50, R53 and R56: the opcode map with the ignored fields at any value, and the canonical words. -/
def Obligations.CommandOpcodeMap : Prop :=
  (∀ a b : Byte, decodeWord (packWord 0 a b) = .crcInit) ∧
  (∀ a d : Byte, decodeWord (packWord 1 a d) = .crcUpdate d) ∧
  (∀ a b : Byte, decodeWord (packWord 2 a b) = .crcRead) ∧
  (∀ a c : Byte, decodeWord (packWord 3 a c) = .crcCheck c) ∧
  (∀ hi lo : Byte, decodeWord (packWord 4 hi lo) = .frmStart hi lo) ∧
  (∀ a d : Byte, decodeWord (packWord 5 a d) = .frmData d) ∧
  (∀ a b : Byte, decodeWord (packWord 6 a b) = .frmEnd) ∧
  (∀ a b : Byte, decodeWord (packWord 7 a b) = .reserved7) ∧
  encode .crcInit = .word 0x00000 ∧ (∀ d : Byte, encode (.crcUpdate d) = .word (0x10000 ||| d.setWidth 19)) ∧
  encode .crcRead = .word 0x20000 ∧ (∀ c : Byte, encode (.crcCheck c) = .word (0x30000 ||| c.setWidth 19)) ∧
  (∀ hi lo : Byte, encode (.frmStart hi lo) = .word (0x40000 ||| (hi.setWidth 19 <<< 8) ||| lo.setWidth 19)) ∧
  (∀ d : Byte, encode (.frmData d) = .word (0x50000 ||| d.setWidth 19)) ∧
  encode .frmEnd = .word 0x60000 ∧ encode .reserved7 = .word 0x70000

/-- Words and frames as the opcode table numbers them: a sanity statement. The command words, and the bytes of the frames
of macros, are those of 95_test_vectors.md; 12 34 is an address of the model's own, no vector of the spec. That a frame
is an input at all, which row it is read as (00 10 03 00 AC as START_MEASUREMENT_PM, 12 34 as FRAME.F0), and that bytes
with a wrong checksum are none, is the model's choice (log entry 7; the test of the checksum is R58). -/
def Obligations.TableWordsDecode : Prop :=
  decodeTableWord 24 0x100BE = some (.crcUpdate 0xBE) ∧ decodeTableWord 24 0x155EF = some (.crcUpdate 0xEF) ∧
  decodeTableWord 24 0x44600 = some (.frmStart 0x46 0x00) ∧ decodeTableWord 24 0x7ABCD = some .reserved7 ∧
  decodeTableWord 16 0xD025 = some .readArticleCode ∧ decodeTableWord 16 0x1234 = some (.frameF0 0x12 0x34) ∧
  decodeTableWord 40 0x00100300AC = some .startMeasurementPm ∧
  decodeTableWord 40 0x46000002E3 = some (.writeMeasInterval 2) ∧ decodeTableWord 40 0x46000002E2 = none

/-- Every well-formed instruction is read back from its encoding with every operand. That a transaction and a frame are
inputs that can be read back is the model's choice (log entries 6 and 7). So is which row is read where two rows of the
table share a frame, the more specific one: TRIGGER_CONT_MEAS 0x0300 as START_MEASUREMENT_PM, a frame format as a frame
macro (log entry 7). The spec's R116 says that a decoder 'cannot tell the two apart and must not try'; the choice tells
nothing apart, as such rows have one effect (FrameRowsAreBuildWrite). -/
def Obligations.DecodeInvertsEncode : Prop :=
  (∀ i : Instr, i.wellFormed = true → (∀ hi lo, i ≠ .frameF0 hi lo) → (∀ hi lo p, i ≠ .frameF1 hi lo p) →
    i ≠ .triggerContMeas 0x0300 → decode (encode i) = .ok i) ∧
  decode (encode (.triggerContMeas 0x0300)) = .ok .startMeasurementPm ∧
  (∀ hi lo : Byte,
    (hi, lo) ∉ [((0xD0, 0x25) : Byte × Byte), (0xD0, 0x33), (0x80, 0x04), (0x01, 0x04), (0x46, 0x00), (0x02, 0x02),
      (0x03, 0x00)] → decode (encode (.frameF0 hi lo)) = .ok (.frameF0 hi lo)) ∧
  (∀ hi lo payload, payload ≠ [] →
    ¬ (payload.length = 2 ∧ ((hi, lo) = ((0x00, 0x10) : Byte × Byte) ∨ (hi, lo) = ((0x46, 0x00) : Byte × Byte))) →
    decode (encode (.frameF1 hi lo payload)) = .ok (.frameF1 hi lo payload)) ∧
  encode (.frameF0 0xD0 0x25) = encode .readArticleCode ∧ encode (.frameF0 0xD0 0x33) = encode .readSerialNumber ∧
  encode (.frameF0 0x80 0x04) = encode .readCleaningInterval ∧
  encode (.frameF0 0x01 0x04) = encode .stopMeasurementPm ∧
  encode (.frameF0 0x46 0x00) = encode .readMeasInterval ∧ encode (.frameF0 0x02 0x02) = encode .pollReady ∧
  encode (.frameF0 0x03 0x00) = encode .readMeasResult ∧
  (∀ p q : Byte, encode (.frameF1 0x00 0x10 [p, q]) = encode (.triggerContMeas (joinBytes p q))) ∧
  (∀ p q : Byte, encode (.frameF1 0x46 0x00 [p, q]) = encode (.writeMeasInterval (joinBytes p q)))

/-- What the decoder accepts is well-formed and is an encoding of what it reads: of a frame every byte, of a list of
command words what they decode to. That a list of command words and a frame are inputs is the model's choice (log entries
6 and 7). -/
def Obligations.EncodeInvertsDecode : Prop :=
  (∀ x i, decode x = .ok i → i.wellFormed = true) ∧
  (∀ bytes i, decode (.frame bytes) = .ok i → encode i = .frame bytes) ∧
  (∀ ws i, decode (.sequence ws) = .ok i → (commandWords i).map decodeWord = ws.map decodeWord)

/-- R33: a 16-bit value is split into two bytes, high byte first, and no bit of it is lost. -/
def Obligations.WordOperandHighByteFirst : Prop :=
  (∀ v : Word16, wordPayload v = [v.extractLsb 15 8, v.extractLsb 7 0]) ∧
  (∀ v : Word16, joinBytes (hiByte v) (loByte v) = v) ∧
  (∀ hi lo : Byte, wordPayload (joinBytes hi lo) = [hi, lo])

/-! ## Steps and reset (00_scope.md R7, 70_reset_and_hazards.md section 1) -/

/-- When the input at the head of the port decodes to an instruction, the step is that instruction's exec on the state
without that input: log entry 1 is the model's choice of a port in the state. -/
def Obligations.StepRunsDecodedInstruction : Prop :=
  ∀ (s : State) (x : Input) (rest : List PortEvent) (i : Instr),
    s.port = .issue x :: rest → decode x = .ok i → step s = exec i { s with port := rest }

/-- R145: a reset puts every state variable at its value of 10_state.md R23, in any state, and appends nothing; the
mark in `cuts` is the model's own (log entry 3). -/
def Obligations.ResetRestoresEveryVariable : Prop :=
  ∀ (s : State) (rest : List PortEvent), s.port = .reset :: rest →
    step s = .next { s with
      crc := 0xFF, phase := .idle, nonempty := false, err := false, errCode := .none,
      cuts := s.cuts ++ [s.tx.length], port := rest }

/-- R23: the values after reset. -/
def Obligations.ResetStateValues : Prop :=
  State.reset.crc = 0xFF ∧ State.reset.phase = .idle ∧ State.reset.nonempty = false ∧ State.reset.err = false ∧
  State.reset.errCode = .none ∧ State.reset.tx = [] ∧ State.reset.rsp = [] ∧
  step { State.reset with port := [.issue (.word 0x10002)] } =
    .next { State.reset with crc := checksum [0x02] }

/-- What a step does with a port that holds no instruction: the model's choices of log entries 2 and 8. -/
def Obligations.StepWithoutInstruction : Prop :=
  (∀ s : State, s.port = [] → step s = .next s) ∧
  (∀ (s : State) ws rest e, s.port = .issue (.sequence ws) :: rest → s.err = false →
    decode (.sequence ws) = .error e → step s = .next { s with port := ws.map issueWord ++ rest }) ∧
  (∀ (s : State) bytes rest e, s.port = .issue (.frame bytes) :: rest → s.err = false →
    decode (.frame bytes) = .error e → step s = .refused (.notAnInstruction (.notAFrame bytes)))

/-- The step function is total on every state and every command word (93_implementation_defined.md section 2), and every
instruction answers a next state in every state. -/
def Obligations.NothingStopsTheBlock : Prop :=
  (∀ i s, ∃ t, exec i s = .next t) ∧
  (∀ (s : State) w rest, s.port = issueWord w :: rest → ∃ t, step s = .next t)

/-- R133: the order of the checks of a command word: `err`, then the reserved opcode, then the phase. FRM.DATA (5) and
FRM.END (6) are legal in OPEN, the others in IDLE. -/
def Obligations.ChecksInOrder : Prop :=
  ∀ (s : State) (w : CmdWord) (rest : List PortEvent), s.port = issueWord w :: rest →
    (s.err = true → step s = .next { s with port := rest }) ∧
    (s.err = false → fieldOp w = 7 → step s = .next (faulted .illegalOp { s with port := rest })) ∧
    (s.err = false → fieldOp w ≠ 7 → ¬ (s.phase = .opened ↔ (fieldOp w = 5 ∨ fieldOp w = 6)) →
      step s = .next (faulted .seqError { s with port := rest })) ∧
    (s.err = false → fieldOp w ≠ 7 → (s.phase = .opened ↔ (fieldOp w = 5 ∨ fieldOp w = 6)) →
      ∃ t, step s = .next t ∧ t.err = false ∧ t.errCode = s.errCode ∧ t.port = rest)

/-! ## The commands (40_crc8.md section 2, 41_frame.md section 2). Each equation gives the whole next state: what it
does not name is unchanged. -/

/-- R76: CRC.INIT, its encoding, its effect, its fault, the frozen block, and the rule's example. -/
def Obligations.CrcInitRule : Prop :=
  encode .crcInit = .word 0x00000 ∧ (∀ a b : Byte, decodeWord (packWord 0 a b) = .crcInit) ∧
  (∀ s : State, s.err = false → s.phase = .idle → exec .crcInit s = .next { s with crc := 0xFF }) ∧
  (∀ s : State, s.err = false → s.phase = .opened → exec .crcInit s = .next (faulted .seqError s)) ∧
  (∀ s : State, s.err = true → exec .crcInit s = .next s) ∧
  (∀ s : State, Boundary s → execAll [.crcInit, .crcInit] s = exec .crcInit s) ∧
  exec .crcInit State.reset = .next State.reset

/-- R77: CRC.UPDATE. -/
def Obligations.CrcUpdateRule : Prop :=
  (∀ d : Byte, encode (.crcUpdate d) = .word (0x10000 ||| d.setWidth 19)) ∧
  (∀ a d : Byte, decodeWord (packWord 1 a d) = .crcUpdate d) ∧
  (∀ (s : State) d, s.err = false → s.phase = .idle →
    exec (.crcUpdate d) s = .next { s with crc := crcByte s.crc d }) ∧
  (∀ (s : State) d, s.err = false → s.phase = .opened → exec (.crcUpdate d) s = .next (faulted .seqError s)) ∧
  (∀ (s : State) d, s.err = true → exec (.crcUpdate d) s = .next s) ∧
  crcByte 0xFF 0x00 = 0xAC ∧ (∀ c, crcByte c c = 0x00) ∧ crcByte 0xFF 0xBE = 0x0C ∧ crcByte 0x0C 0xEF = 0x92

/-- R78: CRC.READ leaves the register as it is. -/
def Obligations.CrcReadRule : Prop :=
  encode .crcRead = .word 0x20000 ∧ (∀ a b : Byte, decodeWord (packWord 2 a b) = .crcRead) ∧
  (∀ s : State, s.err = false → s.phase = .idle →
    exec .crcRead s = .next { s with rsp := s.rsp ++ [.rspCrc s.crc] }) ∧
  (∀ s : State, s.err = false → s.phase = .opened → exec .crcRead s = .next (faulted .seqError s)) ∧
  (∀ s : State, s.err = true → exec .crcRead s = .next s) ∧
  exec .crcRead State.reset = .next { State.reset with rsp := [.rspCrc 0xFF] } ∧
  (∀ s : State, Boundary s →
    execAll [.crcInit, .crcRead] s = .next { s with crc := 0xFF, rsp := s.rsp ++ [.rspCrc 0xFF] })

/-- R79: CRC.CHECK compares all eight bits of the raw register; a mismatch is a result and sets no `err`. -/
def Obligations.CrcCheckRule : Prop :=
  (∀ c : Byte, encode (.crcCheck c) = .word (0x30000 ||| c.setWidth 19)) ∧
  (∀ a c : Byte, decodeWord (packWord 3 a c) = .crcCheck c) ∧
  (∀ s : State, s.err = false → s.phase = .idle →
    exec (.crcCheck s.crc) s = .next { s with rsp := s.rsp ++ [.rspMatch true] }) ∧
  (∀ (s : State) c, s.err = false → s.phase = .idle → s.crc ≠ c →
    exec (.crcCheck c) s = .next { s with rsp := s.rsp ++ [.rspMatch false] }) ∧
  (∀ (s : State) c, s.err = false → s.phase = .opened → exec (.crcCheck c) s = .next (faulted .seqError s)) ∧
  (∀ (s : State) c, s.err = true → exec (.crcCheck c) s = .next s) ∧
  (∀ s : State, Boundary s → execAll [.crcInit, .crcUpdate 0x00, .crcUpdate 0x02, .crcCheck 0xE3, .crcCheck 0xE2] s =
    .next { s with crc := 0xE3, rsp := s.rsp ++ [.rspMatch true, .rspMatch false] })

/-- R94: FRM.START, for every address. -/
def Obligations.FrmStartRule : Prop :=
  (∀ hi lo : Byte, encode (.frmStart hi lo) = .word (0x40000 ||| (hi.setWidth 19 <<< 8) ||| lo.setWidth 19)) ∧
  (∀ hi lo : Byte, decodeWord (packWord 4 hi lo) = .frmStart hi lo) ∧
  (∀ (s : State) hi lo, s.err = false → s.phase = .idle →
    exec (.frmStart hi lo) s = .next { s with
      tx := s.tx ++ [.txByte hi, .txByte lo], crc := 0xFF, nonempty := false, phase := .opened }) ∧
  (∀ (s : State) hi lo, s.err = false → s.phase = .opened →
    exec (.frmStart hi lo) s = .next (faulted .seqError s)) ∧
  (∀ (s : State) hi lo, s.err = true → exec (.frmStart hi lo) s = .next s) ∧
  encode (.frmStart 0x46 0x00) = .word 0x44600

/-- R95: FRM.DATA, the byte unchanged on `tx` and absorbed into the checksum. -/
def Obligations.FrmDataRule : Prop :=
  (∀ d : Byte, encode (.frmData d) = .word (0x50000 ||| d.setWidth 19)) ∧
  (∀ a d : Byte, decodeWord (packWord 5 a d) = .frmData d) ∧
  (∀ (s : State) d, s.err = false → s.phase = .opened →
    exec (.frmData d) s = .next { s with
      tx := s.tx ++ [.txByte d], crc := crcByte s.crc d, nonempty := true }) ∧
  (∀ (s : State) d, s.err = false → s.phase = .idle → exec (.frmData d) s = .next (faulted .seqError s)) ∧
  (∀ (s : State) d, s.err = true → exec (.frmData d) s = .next s) ∧
  crcByte 0xFF 0x00 = 0xAC ∧ crcByte 0xAC 0x02 = 0xE3

/-- R96: FRM.END, the checksum only with a payload, `TxEnd` always; `crc` and `nonempty` keep their values. -/
def Obligations.FrmEndRule : Prop :=
  encode .frmEnd = .word 0x60000 ∧ (∀ a b : Byte, decodeWord (packWord 6 a b) = .frmEnd) ∧
  (∀ s : State, s.err = false → s.phase = .opened → s.nonempty = true →
    exec .frmEnd s = .next { s with tx := s.tx ++ [.txByte s.crc, .txEnd], phase := .idle }) ∧
  (∀ s : State, s.err = false → s.phase = .opened → s.nonempty = false →
    exec .frmEnd s = .next { s with tx := s.tx ++ [.txEnd], phase := .idle }) ∧
  (∀ s : State, s.err = false → s.phase = .idle → exec .frmEnd s = .next (faulted .seqError s)) ∧
  (∀ s : State, s.err = true → exec .frmEnd s = .next s) ∧
  (∀ s : State, Boundary s → execAll [.frmStart 0x46 0x00, .frmData 0x00, .frmData 0x02, .frmEnd] s =
    .next { s with
      tx := s.tx ++ [.txByte 0x46, .txByte 0x00, .txByte 0x00, .txByte 0x02, .txByte 0xE3, .txEnd],
      crc := 0xE3, nonempty := true })

/-- R55 and R130: the reserved opcode takes ILLEGAL_OP in either phase, whatever the ignored fields hold, and has no
other effect. Taking that fault IS its effect. -/
def Obligations.ReservedOpcodeTakesIllegalOp : Prop :=
  (∀ a b : Byte, decodeWord (packWord 7 a b) = .reserved7) ∧
  (∀ s : State, s.err = false → exec .reserved7 s = .next { s with err := true, errCode := .illegalOp }) ∧
  (∀ s : State, s.err = true → exec .reserved7 s = .next s)

/-- The spec's R131 and R134: a defined command in the wrong phase performs nothing and takes SEQ_ERROR, and the reserved
opcode ILLEGAL_OP: taking a fault writes `err` and `err_code` and nothing else. That a transaction, a frame format or a
frame macro handed over whole in an open frame takes SEQ_ERROR is the model's: such inputs are its choice (log entries 6
and 7), and the fault is inferred from their first command, a CRC.INIT or an FRM.START. -/
def Obligations.FaultEntryWritesOnlyErr : Prop :=
  (∀ (s : State) i, s.err = false → s.phase = .idle → (i = .frmEnd ∨ ∃ d, i = .frmData d) →
    exec i s = .next { s with err := true, errCode := .seqError }) ∧
  (∀ (s : State) i, s.err = false → s.phase = .opened → i ≠ .frmEnd → (∀ d, i ≠ .frmData d) → i ≠ .reserved7 →
    exec i s = .next { s with err := true, errCode := .seqError }) ∧
  (∀ s : State, s.err = false → exec .reserved7 s = .next { s with err := true, errCode := .illegalOp })

/-- R129: the legality table and the language of the legal sequences: from a boundary, commands run without a fault
exactly when they are the beginning of a word of the language, and end at a boundary exactly when they are one. -/
def Obligations.LegalSequencesAreTheLanguage : Prop :=
  (∀ (s : State) i, s.err = false → s.phase = .idle → (isCrcCommand i = true ∨ ∃ hi lo, i = .frmStart hi lo) →
    ∃ t, exec i s = .next t ∧ t.err = false) ∧
  (∀ (s : State) i, s.err = false → s.phase = .opened → (i = .frmEnd ∨ ∃ d, i = .frmData d) →
    ∃ t, exec i s = .next t ∧ t.err = false) ∧
  (∀ (s : State) i, s.err = false → s.phase = .opened → (isCrcCommand i = true ∨ ∃ hi lo, i = .frmStart hi lo) →
    exec i s = .next (faulted .seqError s)) ∧
  (∀ (s : State) i, s.err = false → s.phase = .idle → (i = .frmEnd ∨ ∃ d, i = .frmData d) →
    exec i s = .next (faulted .seqError s)) ∧
  (∀ s : State, s.err = false → exec .reserved7 s = .next (faulted .illegalOp s)) ∧
  ∀ (cmds : List Instr) (s : State), (∀ i ∈ cmds, isCommandWord i = true) → Boundary s →
    ∃ t, execAll cmds s = .next t ∧
      (t.err = false ↔ ∃ tail, LegalSequence (cmds ++ tail)) ∧
      (Boundary t ↔ LegalSequence cmds)

/-- R97: the phase transitions and the faults beside them, row by row; no other command moves the phase. -/
def Obligations.PhaseTransitions : Prop :=
  (∀ (s : State) i, s.err = false → s.phase = .idle → isCrcCommand i = true →
    ∃ t, exec i s = .next t ∧ t.phase = .idle ∧ t.err = false) ∧
  (∀ (s : State) hi lo, s.err = false → s.phase = .idle →
    ∃ t, exec (.frmStart hi lo) s = .next t ∧ t.phase = .opened ∧ t.err = false) ∧
  (∀ (s : State) i, s.err = false → s.phase = .idle → (i = .frmEnd ∨ ∃ d, i = .frmData d) →
    ∃ t, exec i s = .next t ∧ t.phase = .idle ∧ t.err = true ∧ t.errCode = .seqError) ∧
  (∀ (s : State) d, s.err = false → s.phase = .opened →
    ∃ t, exec (.frmData d) s = .next t ∧ t.phase = .opened ∧ t.err = false) ∧
  (∀ s : State, s.err = false → s.phase = .opened →
    ∃ t, exec .frmEnd s = .next t ∧ t.phase = .idle ∧ t.err = false) ∧
  (∀ (s : State) i, s.err = false → s.phase = .opened → (isCrcCommand i = true ∨ ∃ hi lo, i = .frmStart hi lo) →
    ∃ t, exec i s = .next t ∧ t.phase = .opened ∧ t.err = true ∧ t.errCode = .seqError) ∧
  (∀ s : State, s.err = false →
    ∃ t, exec .reserved7 s = .next t ∧ t.phase = s.phase ∧ t.err = true ∧ t.errCode = .illegalOp) ∧
  (∀ (s : State) i, s.err = true → exec i s = .next s) ∧
  (∀ (s : State) rest, s.port = .reset :: rest → ∃ t, step s = .next t ∧ t.phase = .idle ∧ t.err = false)

/-- The spec's R135: while `err` is 1 no command word has any effect, and no open frame is ever completed. That the same
holds of every other input is the model's: of a transaction and a frame (log entries 6 and 7), and of command words that
are no transaction and bytes that are no frame (log entry 8). -/
def Obligations.FaultedStateIsFrozen : Prop :=
  (∀ (s : State) i, s.err = true → exec i s = .next s) ∧
  (∀ (s : State) x rest, s.err = true → s.port = .issue x :: rest → step s = .next { s with port := rest }) ∧
  (∀ (s t : State) x rest, s.err = true → s.port = .issue x :: rest → step s = .next t →
    t.frames = s.frames ∧ t.openRun = s.openRun)

/-- R136: only a reset clears `err`, and the first cause is kept until then. -/
def Obligations.OnlyResetClearsError : Prop :=
  ∀ s t : State, s.err = true → step s = .next t →
    (t.err = true ∧ t.errCode = s.errCode) ∨
    (t.err = false ∧ t.errCode = .none ∧ ∃ rest, s.port = .reset :: rest)

/-- The spec's R15 and R128 as the host sees them: the status levels, and that the code 3 is never shown. -/
def Obligations.StatusLevels : Prop :=
  (∀ s : State, s.status.2 ≠ 3) ∧
  (∀ s : State, StateInv s → (s.status.1 = 0 ↔ s.status.2 = 0)) ∧
  (∀ s : State, (faulted .illegalOp s).status = (1, 1) ∧ (faulted .seqError s).status = (1, 2)) ∧
  State.reset.status = (0, 0) ∧ Phase.idle.bit = 0 ∧ Phase.opened.bit = 1

/-- The histories only grow, a step at a time: nothing emitted is taken back, by a reset either. -/
def Obligations.HistoriesOnlyGrow : Prop :=
  ∀ s t : State, step s = .next t → ∃ xs ys marks,
    t.tx = s.tx ++ xs ∧ t.rsp = s.rsp ++ ys ∧ t.cuts = s.cuts ++ marks ∧
    (∀ rest, s.port = .reset :: rest → xs = [] ∧ ys = [])

/-- No instruction reads the histories or the port: with others in their place it does the same, and appends the same
events. So operands come in with the instruction only, and nothing emitted changes a later command. -/
def Obligations.HistoriesAndPortAreNeverRead : Prop :=
  ∀ (i : Instr) (s t : State), exec i s = .next t →
    ∃ xs ys, t.tx = s.tx ++ xs ∧ t.rsp = s.rsp ++ ys ∧ t.cuts = s.cuts ∧ t.port = s.port ∧
      ∀ tx rsp cuts port,
        exec i { s with tx := tx, rsp := rsp, cuts := cuts, port := port } =
          .next { t with tx := tx ++ xs, rsp := rsp ++ ys, cuts := cuts, port := port }

/-! ## Transactions (40_crc8.md section 3, 41_frame.md section 3). Each equation gives the whole next state. -/

/-- The spec's R80 and R82, which it marks as derived: CHECKSUM(B) answers `checksum(B)`. -/
def Obligations.ChecksumTransaction : Prop :=
  ∀ (s : State) bs, Boundary s →
    exec (.checksum bs) s = .next { s with crc := checksum bs, rsp := s.rsp ++ [.rspCrc (checksum bs)] }

/-- The spec's R81, which it marks as derived: VERIFY(B, c) answers whether `c` is `checksum(B)`. -/
def Obligations.VerifyTransaction : Prop :=
  ∀ (s : State) bs c, Boundary s →
    exec (.verify bs c) s =
      .next { s with crc := checksum bs, rsp := s.rsp ++ [.rspMatch (checksum bs == c)] }

/-- The spec's R99 and R100, which it marks as derived: BUILD_WRITE sends the bytes of `build_write` and `TxEnd`. -/
def Obligations.BuildWriteTransaction : Prop :=
  ∀ (s : State) hi lo payload, Boundary s →
    exec (.buildWrite hi lo payload) s = .next { s with
      tx := s.tx ++ (buildWrite hi lo payload).map .txByte ++ [.txEnd],
      crc := checksum payload, nonempty := !payload.isEmpty, phase := .idle }

/-- Every instruction is the sequence of its command words: issued one by one on the port, a step for each, they lead
to the same outcome as the instruction, from every state. So the inputs the model takes whole (log entries 6 and 7)
do nothing that command words do not. -/
def Obligations.InstructionIsItsCommandWords : Prop :=
  ∀ (i : Instr) (s : State) (rest : List PortEvent),
    runSteps (commandWords i).length { s with port := (commandWords i).map issueWord ++ rest } =
      exec i { s with port := rest }

/-- The spec's R21: at a transaction boundary no later transaction depends on the value of `crc` or `nonempty`. Frame
formats and frame macros count as transactions here, as each runs as its BUILD_WRITE (log entry 7). -/
def Obligations.TransactionsForgetThePast : Prop :=
  ∀ (i : Instr) (s : State) (c : Byte) (n : Bool), isCommandWord i = false → Boundary s →
    ∃ t t', exec i s = .next t ∧ exec i { s with crc := c, nonempty := n } = .next t' ∧
      t'.tx = t.tx ∧ t'.rsp = t.rsp ∧ t'.crc = t.crc ∧ Boundary t ∧ Boundary t'

/-- The spec's R150: without CRC.INIT the bytes are absorbed into what the register holds, and nothing is raised. -/
def Obligations.MessageWithoutInit : Prop :=
  ∀ (s : State) bs, Boundary s →
    execAll (bs.map .crcUpdate ++ [.crcRead]) s =
      .next { s with crc := crcFrom s.crc bs, rsp := s.rsp ++ [.rspCrc (crcFrom s.crc bs)] }

/-! ## Frame formats and frame macros (30_encoding.md section 2, 42_commands.md) -/

/-- The spec's R105, which speaks of the frame macros: each is the BUILD_WRITE of its address and payload, from every
state. That FRAME.F0 and FRAME.F1 are instructions that run as their BUILD_WRITE is the model's choice (log entry 7). -/
def Obligations.FrameRowsAreBuildWrite : Prop :=
  (∀ i reg payload, frameOf i = some (reg, payload) →
    ∀ s : State, exec i s = exec (.buildWrite reg.1 reg.2 payload) s) ∧
  (∀ i reg payload, frameOf i = some (reg, payload) → ∀ s : State, Boundary s →
    exec i s = .next { s with
      tx := s.tx ++ (buildWrite reg.1 reg.2 payload).map .txByte ++ [.txEnd],
      crc := checksum payload, nonempty := !payload.isEmpty, phase := .idle }) ∧
  (∀ i, frameOf i = none → isCommandWord i = true ∨ (∃ bs, i = .checksum bs) ∨ ∃ bs c, i = .verify bs c)

/-- The frames of an address alone. The seven macros are the spec's R106, R107, R108, R110, R111, R114 and R115. Of format
F0 the spec's R46 gives the two bytes; that FRAME.F0 is an instruction with command words and an effect is the model's
choice (log entry 7). -/
def Obligations.AddressFrameRows : Prop :=
  (∀ hi lo, SendsAddressFrame (.frameF0 hi lo) hi lo) ∧
  SendsAddressFrame .readArticleCode 0xD0 0x25 ∧ SendsAddressFrame .readSerialNumber 0xD0 0x33 ∧
  SendsAddressFrame .readCleaningInterval 0x80 0x04 ∧ SendsAddressFrame .stopMeasurementPm 0x01 0x04 ∧
  SendsAddressFrame .readMeasInterval 0x46 0x00 ∧ SendsAddressFrame .pollReady 0x02 0x02 ∧
  SendsAddressFrame .readMeasResult 0x03 0x00 ∧
  readLength .readArticleCode = .bytes 47 ∧ readLength .readSerialNumber = .bytes 47 ∧
  readLength .readCleaningInterval = .bytes 6 ∧ readLength .stopMeasurementPm = .noReply ∧
  readLength .readMeasInterval = .bytes 3 ∧ readLength .pollReady = .bytes 3 ∧
  readLength .readMeasResult = .bytes 18

/-- R109, R112, R113: the frames with a payload of two bytes, and the examples of those rules. -/
def Obligations.WordFrameRows : Prop :=
  SendsWordFrame .startMeasurementPm 0x00 0x10 0x03 0x00 0xAC ∧
  (∀ v : Word16, SendsWordFrame (.writeMeasInterval v) 0x46 0x00 (v.extractLsb 15 8) (v.extractLsb 7 0)
    (checksum [v.extractLsb 15 8, v.extractLsb 7 0])) ∧
  (∀ p : Word16, SendsWordFrame (.triggerContMeas p) 0x00 0x10 (p.extractLsb 15 8) (p.extractLsb 7 0)
    (checksum [p.extractLsb 15 8, p.extractLsb 7 0])) ∧
  encode (.writeMeasInterval 2) = .frame [0x46, 0x00, 0x00, 0x02, 0xE3] ∧
  encode (.writeMeasInterval 5) = .frame [0x46, 0x00, 0x00, 0x05, 0x74] ∧
  encode (.writeMeasInterval 1) = .frame [0x46, 0x00, 0x00, 0x01, 0xB0] ∧
  encode (.writeMeasInterval 0) = .frame [0x46, 0x00, 0x00, 0x00, 0x81] ∧
  encode (.writeMeasInterval 0xFFFF) = .frame [0x46, 0x00, 0xFF, 0xFF, 0xAC] ∧
  encode (.triggerContMeas 0) = .frame [0x00, 0x10, 0x00, 0x00, 0x81] ∧
  encode (.triggerContMeas 0x03F5) = .frame [0x00, 0x10, 0x03, 0xF5, 0xDB] ∧
  encode (.triggerContMeas 0x0300) = encode .startMeasurementPm ∧
  crcByte 0xFF 0x03 = 0xFF ∧ crcByte 0xFF 0x00 = 0xAC ∧
  readLength .startMeasurementPm = .noReply ∧ (∀ v, readLength (.writeMeasInterval v) = .notStated) ∧
  (∀ p, readLength (.triggerContMeas p) = .noReply)

/-- Format F1 for a payload of any length. The spec's R47 gives its bytes and its length; that FRAME.F1 is an instruction
with command words and an effect is the model's choice (log entry 7). -/
def Obligations.PayloadFrameRow : Prop :=
  ∀ hi lo payload, 1 ≤ payload.length →
    encode (.frameF1 hi lo payload) = .frame ([hi, lo] ++ payload ++ [checksum payload]) ∧
    ([hi, lo] ++ payload ++ [checksum payload]).length = payload.length + 3 ∧
    commandWords (.frameF1 hi lo payload) = packWord 4 hi lo :: (payload.map (packWord 5 0) ++ [0x60000]) ∧
    ∀ s : State, Boundary s →
      exec (.frameF1 hi lo payload) s = .next { s with
        tx := s.tx ++ ([hi, lo] ++ payload ++ [checksum payload]).map .txByte ++ [.txEnd],
        crc := checksum payload, nonempty := true, phase := .idle }

/-- A frame that the decoder accepts is, byte for byte, the frame its instruction sends. What is accepted is the spec's
R58, whose decoder is 'not part of the block'; that such bytes are an input and run as a BUILD_WRITE is the model's
choice (log entry 7). -/
def Obligations.DecodedFrameIsSent : Prop :=
  ∀ (bytes : List Byte) (i : Instr) (s : State), decode (.frame bytes) = .ok i → Boundary s →
    exec i s = .next { s with
      tx := s.tx ++ bytes.map .txByte ++ [.txEnd],
      crc := checksum i.payload, nonempty := !i.payload.isEmpty, phase := .idle }

/-! ## Invariants, and what a consumer of `tx` sees -/

/-- The invariant of R24 holds after reset. -/
def Obligations.ResetMeetsInvariant : Prop := StateInv State.reset

/-- The spec's R24, which it marks as derived: every step keeps the invariant: in an open frame `crc` is the CRC of the
payload bytes so far and `nonempty` says whether there is one; outside a frame no bytes are left unclosed. -/
def Obligations.StepKeepsInvariant : Prop := ∀ s t : State, StateInv s → step s = .next t → StateInv t

/-- The spec's R100 and R41: a consumer of `tx` takes exactly one more frame, `build_write` of the arguments. -/
def Obligations.BuildWriteAddsOneFrame : Prop :=
  ∀ (s : State) hi lo payload, StateInv s → Boundary s →
    ∃ t, exec (.buildWrite hi lo payload) s = .next t ∧
      t.frames = s.frames ++ [buildWrite hi lo payload] ∧ t.openRun = []

/-- R146: a reset in an open frame abandons it: its bytes stay in `tx` and are part of no frame, and the next frame
begins anew. The mark by which a model cuts is log entry 3. -/
def Obligations.ResetAbandonsOpenFrame : Prop :=
  ∀ (s : State) rest, StateInv s → s.port = .reset :: rest →
    ∃ t, step s = .next t ∧ t.tx = s.tx ∧ t.phase = .idle ∧ t.frames = s.frames ∧ t.openRun = [] ∧
      ∀ hi lo payload, ∃ u, exec (.buildWrite hi lo payload) t = .next u ∧
        u.frames = s.frames ++ [buildWrite hi lo payload]
end

