-- ==== Sys2Proof/Laws/Crc.lean ====
section
/-! SUPPORT. The small lemmas of the CRC and frame functions. -/

namespace Sys2Proof.Machine

theorem crcRounds_zero (c : Byte) : crcRounds 0 c = c := rfl

theorem crcRounds_succ (n : Nat) (c : Byte) : crcRounds (n + 1) c = crcRounds n (crcRound c) := rfl

theorem crcByte_eq_rounds (c d : Byte) : crcByte c d = crcRounds 8 (c ^^^ d) := rfl

theorem crcFrom_nil (c : Byte) : crcFrom c [] = c := rfl

theorem crcFrom_cons (c b : Byte) (rest : List Byte) : crcFrom c (b :: rest) = crcFrom (crcByte c b) rest := rfl

/-- `XOROUT` is 0, so the register is read out unchanged (10_state.md R12). -/
theorem readOut_eq (c : Byte) : readOut c = c := by
  simp [readOut, Config.xorOut]

theorem checksum_eq_crcMsg (bs : List Byte) : checksum bs = crcMsg bs := readOut_eq _

theorem crcMsg_eq_crcFrom (bs : List Byte) : crcMsg bs = crcFrom Config.init bs := rfl

theorem buildWrite_nil (hi lo : Byte) : buildWrite hi lo [] = [hi, lo] := rfl

theorem buildWrite_cons (hi lo p : Byte) (ps : List Byte) :
    buildWrite hi lo (p :: ps) = [hi, lo] ++ (p :: ps) ++ [checksum (p :: ps)] := rfl

end Sys2Proof.Machine
end

