-- ==== Sys2Proof/Laws/Observe.lean ====
section
/-! SUPPORT. How `tx` is read: the reading of a longer history from the reading of its beginning. -/

namespace Sys2Proof.Machine

theorem scanTx_nil (cuts : List Nat) (pos : Nat) (run : List Byte) :
    scanTx cuts pos run [] = ([], cutAt cuts pos run) := rfl

theorem scanTx_byte (cuts : List Nat) (pos : Nat) (run : List Byte) (b : Byte) (rest : List TxEvent) :
    scanTx cuts pos run (.txByte b :: rest) = scanTx cuts (pos + 1) (cutAt cuts pos run ++ [b]) rest := rfl

theorem scanTx_end (cuts : List Nat) (pos : Nat) (run : List Byte) (rest : List TxEvent) :
    scanTx cuts pos run (.txEnd :: rest) =
      (cutAt cuts pos run :: (scanTx cuts (pos + 1) [] rest).1, (scanTx cuts (pos + 1) [] rest).2) := rfl

theorem cutAt_cutAt (cuts : List Nat) (pos : Nat) (run : List Byte) :
    cutAt cuts pos (cutAt cuts pos run) = cutAt cuts pos run := by
  unfold cutAt; split <;> simp_all

theorem cutAt_of_not_mem {cuts : List Nat} {pos : Nat} (h : pos ∉ cuts) (run : List Byte) :
    cutAt cuts pos run = run := by
  simp [cutAt, h]

theorem scanTx_cutAt (cuts : List Nat) (pos : Nat) (run : List Byte) (es : List TxEvent) :
    scanTx cuts pos (cutAt cuts pos run) es = scanTx cuts pos run es := by
  cases es with
  | nil => simp [scanTx_nil, cutAt_cutAt]
  | cons e rest => cases e <;> simp [scanTx, cutAt_cutAt]

/-- Reading on from where a piece of the history ends. -/
theorem scanTx_append (cuts : List Nat) (pos : Nat) (run : List Byte) (xs ys : List TxEvent) :
    scanTx cuts pos run (xs ++ ys) =
      ((scanTx cuts pos run xs).1 ++ (scanTx cuts (pos + xs.length) (scanTx cuts pos run xs).2 ys).1,
       (scanTx cuts (pos + xs.length) (scanTx cuts pos run xs).2 ys).2) := by
  induction xs generalizing pos run with
  | nil => simp [scanTx_nil, scanTx_cutAt]
  | cons e xs ih =>
    cases e with
    | txByte b =>
      rw [List.cons_append, scanTx_byte, scanTx_byte, ih]
      simp [Nat.add_assoc, Nat.add_comm 1]
    | txEnd =>
      rw [List.cons_append, scanTx_end, scanTx_end, ih]
      simp [Nat.add_assoc, Nat.add_comm 1]

end Sys2Proof.Machine
end

