-- ==== Sys2Proof/Laws/State.lean ====
section
/-! SUPPORT. What each named operation of Machine/Ops.lean does to each field: one lemma per field per operation. -/

namespace Sys2Proof.Machine

@[simp] theorem setCrc_crc (v : Byte) (s : State) : (setCrc v s).crc = v := rfl
@[simp] theorem setCrc_phase (v : Byte) (s : State) : (setCrc v s).phase = s.phase := rfl
@[simp] theorem setCrc_nonempty (v : Byte) (s : State) : (setCrc v s).nonempty = s.nonempty := rfl
@[simp] theorem setCrc_err (v : Byte) (s : State) : (setCrc v s).err = s.err := rfl
@[simp] theorem setCrc_errCode (v : Byte) (s : State) : (setCrc v s).errCode = s.errCode := rfl
@[simp] theorem setCrc_tx (v : Byte) (s : State) : (setCrc v s).tx = s.tx := rfl
@[simp] theorem setCrc_rsp (v : Byte) (s : State) : (setCrc v s).rsp = s.rsp := rfl
@[simp] theorem setCrc_cuts (v : Byte) (s : State) : (setCrc v s).cuts = s.cuts := rfl
@[simp] theorem setCrc_port (v : Byte) (s : State) : (setCrc v s).port = s.port := rfl

@[simp] theorem setPhase_crc (p : Phase) (s : State) : (setPhase p s).crc = s.crc := rfl
@[simp] theorem setPhase_phase (p : Phase) (s : State) : (setPhase p s).phase = p := rfl
@[simp] theorem setPhase_nonempty (p : Phase) (s : State) : (setPhase p s).nonempty = s.nonempty := rfl
@[simp] theorem setPhase_err (p : Phase) (s : State) : (setPhase p s).err = s.err := rfl
@[simp] theorem setPhase_errCode (p : Phase) (s : State) : (setPhase p s).errCode = s.errCode := rfl
@[simp] theorem setPhase_tx (p : Phase) (s : State) : (setPhase p s).tx = s.tx := rfl
@[simp] theorem setPhase_rsp (p : Phase) (s : State) : (setPhase p s).rsp = s.rsp := rfl
@[simp] theorem setPhase_cuts (p : Phase) (s : State) : (setPhase p s).cuts = s.cuts := rfl
@[simp] theorem setPhase_port (p : Phase) (s : State) : (setPhase p s).port = s.port := rfl

@[simp] theorem setNonempty_crc (n : Bool) (s : State) : (setNonempty n s).crc = s.crc := rfl
@[simp] theorem setNonempty_phase (n : Bool) (s : State) : (setNonempty n s).phase = s.phase := rfl
@[simp] theorem setNonempty_nonempty (n : Bool) (s : State) : (setNonempty n s).nonempty = n := rfl
@[simp] theorem setNonempty_err (n : Bool) (s : State) : (setNonempty n s).err = s.err := rfl
@[simp] theorem setNonempty_errCode (n : Bool) (s : State) : (setNonempty n s).errCode = s.errCode := rfl
@[simp] theorem setNonempty_tx (n : Bool) (s : State) : (setNonempty n s).tx = s.tx := rfl
@[simp] theorem setNonempty_rsp (n : Bool) (s : State) : (setNonempty n s).rsp = s.rsp := rfl
@[simp] theorem setNonempty_cuts (n : Bool) (s : State) : (setNonempty n s).cuts = s.cuts := rfl
@[simp] theorem setNonempty_port (n : Bool) (s : State) : (setNonempty n s).port = s.port := rfl

@[simp] theorem emit_crc (b : Byte) (s : State) : (emit b s).crc = s.crc := rfl
@[simp] theorem emit_phase (b : Byte) (s : State) : (emit b s).phase = s.phase := rfl
@[simp] theorem emit_nonempty (b : Byte) (s : State) : (emit b s).nonempty = s.nonempty := rfl
@[simp] theorem emit_err (b : Byte) (s : State) : (emit b s).err = s.err := rfl
@[simp] theorem emit_errCode (b : Byte) (s : State) : (emit b s).errCode = s.errCode := rfl
@[simp] theorem emit_tx (b : Byte) (s : State) : (emit b s).tx = s.tx ++ [.txByte b] := rfl
@[simp] theorem emit_rsp (b : Byte) (s : State) : (emit b s).rsp = s.rsp := rfl
@[simp] theorem emit_cuts (b : Byte) (s : State) : (emit b s).cuts = s.cuts := rfl
@[simp] theorem emit_port (b : Byte) (s : State) : (emit b s).port = s.port := rfl

@[simp] theorem emitEnd_crc (s : State) : (emitEnd s).crc = s.crc := rfl
@[simp] theorem emitEnd_phase (s : State) : (emitEnd s).phase = s.phase := rfl
@[simp] theorem emitEnd_nonempty (s : State) : (emitEnd s).nonempty = s.nonempty := rfl
@[simp] theorem emitEnd_err (s : State) : (emitEnd s).err = s.err := rfl
@[simp] theorem emitEnd_errCode (s : State) : (emitEnd s).errCode = s.errCode := rfl
@[simp] theorem emitEnd_tx (s : State) : (emitEnd s).tx = s.tx ++ [.txEnd] := rfl
@[simp] theorem emitEnd_rsp (s : State) : (emitEnd s).rsp = s.rsp := rfl
@[simp] theorem emitEnd_cuts (s : State) : (emitEnd s).cuts = s.cuts := rfl
@[simp] theorem emitEnd_port (s : State) : (emitEnd s).port = s.port := rfl

@[simp] theorem respond_crc (e : RspEvent) (s : State) : (respond e s).crc = s.crc := rfl
@[simp] theorem respond_phase (e : RspEvent) (s : State) : (respond e s).phase = s.phase := rfl
@[simp] theorem respond_nonempty (e : RspEvent) (s : State) : (respond e s).nonempty = s.nonempty := rfl
@[simp] theorem respond_err (e : RspEvent) (s : State) : (respond e s).err = s.err := rfl
@[simp] theorem respond_errCode (e : RspEvent) (s : State) : (respond e s).errCode = s.errCode := rfl
@[simp] theorem respond_tx (e : RspEvent) (s : State) : (respond e s).tx = s.tx := rfl
@[simp] theorem respond_rsp (e : RspEvent) (s : State) : (respond e s).rsp = s.rsp ++ [e] := rfl
@[simp] theorem respond_cuts (e : RspEvent) (s : State) : (respond e s).cuts = s.cuts := rfl
@[simp] theorem respond_port (e : RspEvent) (s : State) : (respond e s).port = s.port := rfl

@[simp] theorem takeFault_crc (k : ErrCode) (s : State) : (takeFault k s).crc = s.crc := rfl
@[simp] theorem takeFault_phase (k : ErrCode) (s : State) : (takeFault k s).phase = s.phase := rfl
@[simp] theorem takeFault_nonempty (k : ErrCode) (s : State) : (takeFault k s).nonempty = s.nonempty := rfl
@[simp] theorem takeFault_err (k : ErrCode) (s : State) : (takeFault k s).err = true := rfl
@[simp] theorem takeFault_errCode (k : ErrCode) (s : State) : (takeFault k s).errCode = k := rfl
@[simp] theorem takeFault_tx (k : ErrCode) (s : State) : (takeFault k s).tx = s.tx := rfl
@[simp] theorem takeFault_rsp (k : ErrCode) (s : State) : (takeFault k s).rsp = s.rsp := rfl
@[simp] theorem takeFault_cuts (k : ErrCode) (s : State) : (takeFault k s).cuts = s.cuts := rfl
@[simp] theorem takeFault_port (k : ErrCode) (s : State) : (takeFault k s).port = s.port := rfl

@[simp] theorem resetEvent_crc (s : State) : (resetEvent s).crc = 0xFF := rfl
@[simp] theorem resetEvent_phase (s : State) : (resetEvent s).phase = .idle := rfl
@[simp] theorem resetEvent_nonempty (s : State) : (resetEvent s).nonempty = false := rfl
@[simp] theorem resetEvent_err (s : State) : (resetEvent s).err = false := rfl
@[simp] theorem resetEvent_errCode (s : State) : (resetEvent s).errCode = .none := rfl
@[simp] theorem resetEvent_tx (s : State) : (resetEvent s).tx = s.tx := rfl
@[simp] theorem resetEvent_rsp (s : State) : (resetEvent s).rsp = s.rsp := rfl
@[simp] theorem resetEvent_cuts (s : State) : (resetEvent s).cuts = s.cuts ++ [s.tx.length] := rfl
@[simp] theorem resetEvent_port (s : State) : (resetEvent s).port = s.port := rfl

@[simp] theorem placeInput_crc (x : Input) (s : State) : (placeInput x s).crc = s.crc := rfl
@[simp] theorem placeInput_phase (x : Input) (s : State) : (placeInput x s).phase = s.phase := rfl
@[simp] theorem placeInput_nonempty (x : Input) (s : State) : (placeInput x s).nonempty = s.nonempty := rfl
@[simp] theorem placeInput_err (x : Input) (s : State) : (placeInput x s).err = s.err := rfl
@[simp] theorem placeInput_errCode (x : Input) (s : State) : (placeInput x s).errCode = s.errCode := rfl
@[simp] theorem placeInput_tx (x : Input) (s : State) : (placeInput x s).tx = s.tx := rfl
@[simp] theorem placeInput_rsp (x : Input) (s : State) : (placeInput x s).rsp = s.rsp := rfl
@[simp] theorem placeInput_cuts (x : Input) (s : State) : (placeInput x s).cuts = s.cuts := rfl
@[simp] theorem placeInput_port (x : Input) (s : State) : (placeInput x s).port = .issue x :: s.port := rfl

end Sys2Proof.Machine
end

