-- ==== Sys2Proof/Laws/Ops.lean ====
section
/-! SUPPORT. What each shared operation can do, said once: the checks every command goes through, runs of commands,
the port, and the commands in the phase in which they are legal. -/

namespace Sys2Proof.Machine

theorem whenLive_of_err {f : State → State} {s : State} (h : s.err = true) : whenLive f s = s := by
  simp [whenLive, h]

theorem whenLive_of_live {f : State → State} {s : State} (h : s.err = false) : whenLive f s = f s := by
  simp [whenLive, h]

theorem whenLegal_of_err {need : Phase} {f : State → State} {s : State} (h : s.err = true) :
    whenLegal need f s = s := whenLive_of_err h

theorem whenLegal_of_legal {need : Phase} {f : State → State} {s : State} (h : s.err = false)
    (hp : s.phase = need) : whenLegal need f s = f s := by
  simp [whenLegal, whenLive, h, hp]

theorem whenLegal_of_illegal {need : Phase} {f : State → State} {s : State} (h : s.err = false)
    (hp : s.phase ≠ need) : whenLegal need f s = takeFault .seqError s := by
  simp [whenLegal, whenLive, h, hp]

/-- Everything the checks of a defined command can lead to (60_exceptions.md R133). -/
theorem whenLegal_cases (need : Phase) (f : State → State) (s : State) :
    (s.err = true ∧ whenLegal need f s = s) ∨
    (s.err = false ∧ s.phase = need ∧ whenLegal need f s = f s) ∨
    (s.err = false ∧ s.phase ≠ need ∧ whenLegal need f s = takeFault .seqError s) := by
  cases he : s.err with
  | true => exact .inl ⟨rfl, whenLegal_of_err he⟩
  | false =>
    by_cases hp : s.phase = need
    · exact .inr (.inl ⟨rfl, hp, whenLegal_of_legal he hp⟩)
    · exact .inr (.inr ⟨rfl, hp, whenLegal_of_illegal he hp⟩)

theorem runAll_nil (s : State) : runAll [] s = s := rfl

theorem runAll_cons (f : State → State) (fs : List (State → State)) (s : State) :
    runAll (f :: fs) s = runAll fs (f s) := rfl

theorem runAll_append (fs gs : List (State → State)) (s : State) :
    runAll (fs ++ gs) s = runAll gs (runAll fs s) := by
  simp [runAll, List.foldl_append]

/-- A run of commands that all leave a state as it is leaves it as it is. -/
theorem runAll_fixed {fs : List (State → State)} {s : State} (h : ∀ f ∈ fs, f s = s) : runAll fs s = s := by
  induction fs with
  | nil => rfl
  | cons f fs ih =>
    rw [runAll_cons, h f (by simp)]
    exact ih fun g hg => h g (by simp [hg])

/-- What every command of a run keeps, the run keeps. -/
theorem runAll_keeps {P : State → Prop} {fs : List (State → State)} (h : ∀ f ∈ fs, ∀ s, P s → P (f s)) :
    ∀ s, P s → P (runAll fs s) := by
  induction fs with
  | nil => exact fun s hs => hs
  | cons f fs ih =>
    intro s hs
    exact ih (fun g hg => h g (by simp [hg])) _ (h f (by simp) s hs)

theorem takePort_nil {s : State} (h : s.port = []) : takePort s = none := by
  simp [takePort, h]

theorem takePort_cons {s : State} {e : PortEvent} {rest : List PortEvent} (h : s.port = e :: rest) :
    takePort s = some (e, { s with port := rest }) := by
  simp [takePort, h]

/-- Everything an input that is no instruction can lead to. -/
theorem rejectInput_cases (e : DecodeError) (s : State) :
    (s.err = true ∧ rejectInput e s = .next s) ∨
    (s.err = false ∧ ∃ ws, e = .notATransaction ws ∧
      rejectInput e s = .next { s with port := ws.map (fun w => .issue (.word w)) ++ s.port }) ∨
    (s.err = false ∧ (∀ ws, e ≠ .notATransaction ws) ∧ rejectInput e s = .refused (.notAnInstruction e)) := by
  cases he : s.err with
  | true => exact .inl ⟨rfl, by simp [rejectInput, he]⟩
  | false => cases e <;> simp [rejectInput, he]

/-- CRC.UPDATE commands in a row, outside a frame, absorb their bytes from left to right. -/
theorem runAll_crcUpdate {s : State} (he : s.err = false) (hp : s.phase = .idle) (bs : List Byte) :
    runAll (bs.map doCrcUpdate) s = setCrc (crcFrom s.crc bs) s := by
  induction bs generalizing s with
  | nil => rfl
  | cons b bs ih =>
    have h1 : doCrcUpdate b s = setCrc (crcByte s.crc b) s := whenLegal_of_legal he hp
    rw [List.map_cons, runAll_cons, h1, ih (s := setCrc (crcByte s.crc b) s) he hp]
    rfl

/-- FRM.DATA commands in a row, inside a frame, emit and absorb their bytes from left to right. -/
theorem runAll_frmData {s : State} (he : s.err = false) (hp : s.phase = .opened) (bs : List Byte) :
    runAll (bs.map doFrmData) s =
      { s with crc := crcFrom s.crc bs, nonempty := s.nonempty || !bs.isEmpty,
               tx := s.tx ++ bs.map .txByte } := by
  induction bs generalizing s with
  | nil => cases s; simp [runAll_nil, crcFrom_nil]
  | cons b bs ih =>
    have h1 : doFrmData b s = setNonempty true (setCrc (crcByte s.crc b) (emit b s)) :=
      whenLegal_of_legal he hp
    rw [List.map_cons, runAll_cons, h1, ih (s := setNonempty true (setCrc (crcByte s.crc b) (emit b s))) he hp]
    cases s
    simp [setNonempty, setCrc, emit, crcFrom_cons]

end Sys2Proof.Machine
end

