-- ==== Sys2Proof/Laws/PerInstr.lean ====
section
/-! SUPPORT. Statements made of every instruction as syntax, one lemma per constructor. Family EncodeLength: an
encoded instruction has the number of bits its row has (30_encoding.md R46, R47, R49, R59, R61). -/

namespace Sys2Proof.Laws.EncodeLength

open Machine

/-- The number of bits of an instruction's row: a command word has 19, a transaction 19 for each of its commands, a
frame 16 or `8 (n + 3)`. -/
def rowBits : Instr → Nat
  | .crcInit => 19
  | .crcUpdate _ => 19
  | .crcRead => 19
  | .crcCheck _ => 19
  | .frmStart _ _ => 19
  | .frmData _ => 19
  | .frmEnd => 19
  | .reserved7 => 19
  | .checksum bs => 19 * (bs.length + 2)
  | .verify bs _ => 19 * (bs.length + 2)
  | .buildWrite _ _ p => 19 * (p.length + 2)
  | .frameF0 _ _ => 16
  | .frameF1 _ _ p => 8 * (p.length + 3)
  | .readArticleCode => 16
  | .readSerialNumber => 16
  | .readCleaningInterval => 16
  | .startMeasurementPm => 40
  | .stopMeasurementPm => 16
  | .readMeasInterval => 16
  | .writeMeasInterval _ => 40
  | .triggerContMeas _ => 40
  | .pollReady => 16
  | .readMeasResult => 16

def Statement (i : Instr) : Prop := i.wellFormed = true → (encode i).bitLength = rowBits i

theorem crcInit : Statement .crcInit := fun _ => rfl
theorem crcUpdate (d : Byte) : Statement (.crcUpdate d) := fun _ => rfl
theorem crcRead : Statement .crcRead := fun _ => rfl
theorem crcCheck (c : Byte) : Statement (.crcCheck c) := fun _ => rfl
theorem frmStart (hi lo : Byte) : Statement (.frmStart hi lo) := fun _ => rfl
theorem frmData (d : Byte) : Statement (.frmData d) := fun _ => rfl
theorem frmEnd : Statement .frmEnd := fun _ => rfl
theorem reserved7 : Statement .reserved7 := fun _ => rfl
theorem checksum (bs : List Byte) : Statement (.checksum bs) := fun _ => by
  simp [encode, commandWords, Input.bitLength, rowBits]
theorem verify (bs : List Byte) (c : Byte) : Statement (.verify bs c) := fun _ => by
  simp [encode, commandWords, Input.bitLength, rowBits]
theorem buildWrite (hi lo : Byte) (payload : List Byte) : Statement (.buildWrite hi lo payload) := fun _ => by
  simp [encode, commandWords, frameWords, Input.bitLength, rowBits]
theorem frameF0 (hi lo : Byte) : Statement (.frameF0 hi lo) := fun _ => rfl
theorem frameF1 (hi lo : Byte) (payload : List Byte) : Statement (.frameF1 hi lo payload) := fun h => by
  cases payload with
  | nil => exact absurd h (by simp [Instr.wellFormed, Instr.wellFormedUnder, Instr.formatOk])
  | cons p ps => simp [encode, frameBytes, frameOf, buildWrite_cons, Input.bitLength, rowBits]
theorem readArticleCode : Statement .readArticleCode := fun _ => rfl
theorem readSerialNumber : Statement .readSerialNumber := fun _ => rfl
theorem readCleaningInterval : Statement .readCleaningInterval := fun _ => rfl
theorem startMeasurementPm : Statement .startMeasurementPm := fun _ => rfl
theorem stopMeasurementPm : Statement .stopMeasurementPm := fun _ => rfl
theorem readMeasInterval : Statement .readMeasInterval := fun _ => rfl
theorem writeMeasInterval (v : Word16) : Statement (.writeMeasInterval v) := fun _ => rfl
theorem triggerContMeas (p : Word16) : Statement (.triggerContMeas p) := fun _ => rfl
theorem pollReady : Statement .pollReady := fun _ => rfl
theorem readMeasResult : Statement .readMeasResult := fun _ => rfl

end Sys2Proof.Laws.EncodeLength
end

