-- ==== Sys2Proof/Machine/Listing.lean ====
section
/-! DEFINITION. The written form of an instruction in the spec's listings (30_encoding.md R60, R61, R62): the mnemonic,
then its operands as hexadecimal bytes separated by commas. No step reads it. -/

namespace Sys2Proof.Machine

def hexDigits : List String :=
  ["0", "1", "2", "3", "4", "5", "6", "7", "8", "9", "A", "B", "C", "D", "E", "F"]

/-- Two hexadecimal digits. -/
def hexPair (b : Byte) : String := hexDigits.getD (b.toNat / 16) "" ++ hexDigits.getD (b.toNat % 16) ""

/-- A byte as the listings write it. -/
def hexByte (b : Byte) : String := "0x" ++ hexPair b

/-- A 16-bit operand of a frame macro, written with four digits. -/
def hexWord (v : Word16) : String := "0x" ++ hexPair (hiByte v) ++ hexPair (loByte v)

/-- A byte sequence, `[b0, b1, ...]` (R61). -/
def hexBytes (bs : List Byte) : String := "[" ++ ", ".intercalate (bs.map hexByte) ++ "]"

/-- A BUILD_WRITE as R61 writes it. -/
def writeText (hi lo : Byte) (payload : List Byte) : String :=
  "BUILD_WRITE((" ++ hexByte hi ++ ", " ++ hexByte lo ++ "), " ++ hexBytes payload ++ ")"

/-- The written form. A frame format is written as the BUILD_WRITE that produces it. -/
def listing : Instr → String
  | .crcInit => "CRC.INIT"
  | .crcUpdate d => "CRC.UPDATE " ++ hexByte d
  | .crcRead => "CRC.READ"
  | .crcCheck c => "CRC.CHECK " ++ hexByte c
  | .frmStart hi lo => "FRM.START " ++ hexByte hi ++ ", " ++ hexByte lo
  | .frmData d => "FRM.DATA " ++ hexByte d
  | .frmEnd => "FRM.END"
  | .reserved7 => "RESERVED.7"
  | .checksum bs => "CHECKSUM(" ++ hexBytes bs ++ ")"
  | .verify bs c => "VERIFY(" ++ hexBytes bs ++ ", " ++ hexByte c ++ ")"
  | .buildWrite hi lo p => writeText hi lo p
  | .frameF0 hi lo => writeText hi lo []
  | .frameF1 hi lo p => writeText hi lo p
  | .readArticleCode => "READ_ARTICLE_CODE"
  | .readSerialNumber => "READ_SERIAL_NUMBER"
  | .readCleaningInterval => "READ_CLEANING_INTERVAL"
  | .startMeasurementPm => "START_MEASUREMENT_PM"
  | .stopMeasurementPm => "STOP_MEASUREMENT_PM"
  | .readMeasInterval => "READ_MEAS_INTERVAL"
  | .writeMeasInterval v => "WRITE_MEAS_INTERVAL " ++ hexWord v
  | .triggerContMeas p => "TRIGGER_CONT_MEAS " ++ hexWord p
  | .pollReady => "POLL_READY"
  | .readMeasResult => "READ_MEAS_RESULT"

end Sys2Proof.Machine
end

