-- ==== Sys2Proof/Tests/Slice0.lean ====
section
/-! SUPPORT. Tests. Expected values come from the spec: the encodings of 30_encoding.md, the vectors of
95_test_vectors.md and the examples of the rules, each named in a comment. The witnesses at the end show, for each
statement with hypotheses, a state and operands that meet them. -/

namespace Sys2Proof.Tests

open Machine

/-- The next state meets a test. -/
def after (o : Host.Outcome State Fault Refusal) (p : State → Bool) : Bool :=
  match o with
  | .next t => p t
  | .fault _ => false
  | .refused _ => false

/-- IDLE with a given `crc` and `nonempty` (95_test_vectors.md section 2.4). -/
def idleWith (c : Byte) (n : Bool) : State := { State.reset with crc := c, nonempty := n }

/-- OPEN after FRM.START 0x46, 0x00, with a given `crc` and `nonempty` (section 2.5). -/
def openWith (c : Byte) (n : Bool) : State :=
  { State.reset with crc := c, phase := .opened, nonempty := n, tx := [.txByte 0x46, .txByte 0x00] }

/-- OPEN after FRM.START 0x46, 0x00 and FRM.DATA 0x00 (program P2, step 2). -/
def openOne : State :=
  { State.reset with crc := 0xAC, phase := .opened, nonempty := true
                     tx := [.txByte 0x46, .txByte 0x00, .txByte 0x00] }

/-- After the fault of program P7, step 1. -/
def faultState : State := { State.reset with err := true, errCode := .illegalOp }

/-- A state with events at the port. -/
def withPort (s : State) (q : List PortEvent) : State := { s with port := q }

/-! ## Well-formedness: an ill-formed term for each check -/

theorem test_wf_f1_needs_payload : (Instr.frameF1 0x46 0x00 []).wellFormed = false := by decide
theorem test_wf_f1_one_byte : (Instr.frameF1 0xFF 0xFF [0xAB]).wellFormed = true := by decide
theorem test_wf_bound_refuses : (Instr.buildWrite 0x12 0x34 [1, 2, 3]).wellFormedUnder (some 2) = false := by decide
theorem test_wf_bound_admits : (Instr.writeMeasInterval 2).wellFormedUnder (some 2) = true := by decide

/-! ## Decoding: words and frames written out bit by bit from 30_encoding.md (R49, R53, R46, R47) -/

theorem test_decode_crcInit : decodeWord 0b0000000000000000000#19 = .crcInit := by decide
theorem test_decode_crcUpdate : decodeWord 0b0010000000010111110#19 = .crcUpdate 0xBE := by decide
/-- Ignored field set: 0x155EF (95_test_vectors.md section 2.4). -/
theorem test_decode_crcUpdate_ignored : decodeWord 0b0010101010111101111#19 = .crcUpdate 0xEF := by decide
theorem test_decode_crcRead : decodeWord 0b0100000000000000000#19 = .crcRead := by decide
theorem test_decode_crcCheck : decodeWord 0b0110000000011100011#19 = .crcCheck 0xE3 := by decide
theorem test_decode_frmStart : decodeWord 0b1000100011000000000#19 = .frmStart 0x46 0x00 := by decide
theorem test_decode_frmData : decodeWord 0b1010000000000000010#19 = .frmData 0x02 := by decide
theorem test_decode_frmEnd : decodeWord 0b1100000000000000000#19 = .frmEnd := by decide
/-- 0x7ABCD (95_test_vectors.md section 2.5). -/
theorem test_decode_reserved7 : decodeWord 0b1111010101111001101#19 = .reserved7 := by decide
/-- Program P1. -/
theorem test_decode_checksum :
    (decode (.sequence [0x00000, 0x100BE, 0x100EF, 0x20000])).toOption = some (.checksum [0xBE, 0xEF]) := by decide
/-- Program P4, steps 3 to 6. -/
theorem test_decode_verify :
    (decode (.sequence [0x00000, 0x10000, 0x10005, 0x30074])).toOption = some (.verify [0x00, 0x05] 0x74) := by decide
/-- Program P2. -/
theorem test_decode_buildWrite :
    (decode (.sequence [0x44600, 0x50000, 0x50002, 0x60000])).toOption = some (.buildWrite 0x46 0x00 [0x00, 0x02]) := by
  decide
theorem test_decode_not_a_transaction : (decode (.sequence [0x00000, 0x60000])).toOption = none := by decide
theorem test_decode_frameF0 : (decode (.frame [0x00, 0x00])).toOption = some (.frameF0 0x00 0x00) := by decide
theorem test_decode_frameF1 :
    (decode (.frame [0xFF, 0xFF, 0xAB, 0xBA])).toOption = some (.frameF1 0xFF 0xFF [0xAB]) := by decide
/-- 95_test_vectors.md section 2.6: 46 00 00 02 E2, 46 00 00 and 46 are no frames. -/
theorem test_decode_bad_frames :
    (decode (.frame [0x46, 0x00, 0x00, 0x02, 0xE2])).toOption = none ∧
    (decode (.frame [0x46, 0x00, 0x00])).toOption = none ∧ (decode (.frame [0x46])).toOption = none ∧
    (decode (.frame [])).toOption = none := by decide +kernel
theorem test_decode_readArticleCode :
    decodeTableWord 16 0b1101000000100101 = some .readArticleCode := by decide
theorem test_decode_readSerialNumber :
    decodeTableWord 16 0b1101000000110011 = some .readSerialNumber := by decide
theorem test_decode_readCleaningInterval :
    decodeTableWord 16 0b1000000000000100 = some .readCleaningInterval := by decide
theorem test_decode_startMeasurementPm :
    decodeTableWord 40 0b0000000000010000000000110000000010101100 = some .startMeasurementPm := by decide +kernel
theorem test_decode_stopMeasurementPm :
    decodeTableWord 16 0b0000000100000100 = some .stopMeasurementPm := by decide
theorem test_decode_readMeasInterval :
    decodeTableWord 16 0b0100011000000000 = some .readMeasInterval := by decide
theorem test_decode_writeMeasInterval :
    decodeTableWord 40 0b0100011000000000000000000000001011100011 = some (.writeMeasInterval 2) := by decide +kernel
/-- `p = 0x03F5` gives 00 10 03 F5 DB (42_commands.md R113). -/
theorem test_decode_triggerContMeas :
    decodeTableWord 40 0x001003F5DB = some (.triggerContMeas 0x03F5) := by decide +kernel
theorem test_decode_pollReady : decodeTableWord 16 0b0000001000000010 = some .pollReady := by decide
theorem test_decode_readMeasResult : decodeTableWord 16 0b0000001100000000 = some .readMeasResult := by decide
/-- The table's string for BUILD_WRITE with h = 46, l = 00, p = 00, q = 02. -/
theorem test_decode_table_sequence :
    decodeTableWord 80 0b1000100011000000000101000000000000000010100000000000000101100000000000000000 =
      some (.buildWrite 0x46 0x00 [0x00, 0x02]) := by decide
theorem test_decode_table_word : decodeTableWord 24 0x100BE = some (.crcUpdate 0xBE) ∧
    decodeTableWord 24 0x80000 = none := by decide

/-! ## Checksums and frames: 95_test_vectors.md sections 2.3 and 2.6 -/

theorem test_checksum_document : checksum [0x00, 0x02] = 0xE3 := by decide +kernel
theorem test_checksum_check_string :
    checksum [0x31, 0x32, 0x33, 0x34, 0x35, 0x36, 0x37, 0x38, 0x39] = 0xF7 := by decide +kernel
theorem test_checksum_four_bytes : checksum [0xDE, 0xAD, 0xBE, 0xEF] = 0x69 := by decide +kernel
/-- The reflected reading gives 0x3D, which the document's vector rules out (section 2.3). -/
theorem test_checksum_reflected :
    checksumOf { Config.crcParams with refIn := true, refOut := true } [0x00, 0x02] = 0x3D := by decide +kernel
theorem test_crcBit_serial : crcByteSerial 0xFF 0xBE = 0x0C ∧ crcByteTable 0xFF 0xBE = 0x0C := by decide
theorem test_buildWrite_document : buildWrite 0x46 0x00 [0x00, 0x02] = [0x46, 0x00, 0x00, 0x02, 0xE3] := by decide +kernel
theorem test_buildWrite_misuse :
    buildWrite 0x00 0x10 [0x03, 0x00, 0xAC] = [0x00, 0x10, 0x03, 0x00, 0xAC, 0x00] := by decide +kernel

/-! ## Single steps: 95_test_vectors.md sections 2.4 and 2.5 -/

theorem test_crcInit : after (exec .crcInit (idleWith 0x92 false)) (fun t => t.crc == 0xFF && !t.err) = true := by decide
theorem test_crcUpdate : after (exec (.crcUpdate 0xEF) (idleWith 0x0C false)) (fun t => t.crc == 0x92) = true := by decide
theorem test_crcUpdate_in_frame :
    after (exec (.crcUpdate 0xEF) (openWith 0xFF false))
      (fun t => t.crc == 0xFF && t.err && t.errCode == .seqError && t.phase == .opened) = true := by decide
theorem test_crcRead :
    after (exec .crcRead (idleWith 0x92 false)) (fun t => t.rsp == [.rspCrc 0x92] && t.crc == 0x92) = true := by decide
theorem test_crcCheck_match :
    after (exec (.crcCheck 0xE3) (idleWith 0xE3 false)) (fun t => t.rsp == [.rspMatch true]) = true := by decide
/-- Bit 7 differs: all eight bits are compared. -/
theorem test_crcCheck_mismatch :
    after (exec (.crcCheck 0x63) (idleWith 0xE3 false)) (fun t => t.rsp == [.rspMatch false] && !t.err) = true := by decide
theorem test_frmStart :
    after (exec (.frmStart 0x46 0x00) (idleWith 0x92 true))
      (fun t => t.tx == [.txByte 0x46, .txByte 0x00] && t.crc == 0xFF && !t.nonempty && t.phase == .opened) = true := by
  decide
theorem test_frmData :
    after (exec (.frmData 0x02) (openWith 0xAC true))
      (fun t => t.crc == 0xE3 && t.nonempty && t.tx == [.txByte 0x46, .txByte 0x00, .txByte 0x02]) = true := by decide
theorem test_frmData_idle :
    after (exec (.frmData 0x12) (idleWith 0xFF false)) (fun t => t.err && t.errCode == .seqError && t.tx == []) = true := by
  decide
theorem test_frmEnd_empty :
    after (exec .frmEnd (openWith 0xFF false))
      (fun t => t.tx == [.txByte 0x46, .txByte 0x00, .txEnd] && t.phase == .idle) = true := by decide
/-- Payload [0x03]: checksum 0xFF is emitted because `nonempty` is 1. -/
theorem test_frmEnd_checksum :
    after (exec .frmEnd (openWith 0xFF true))
      (fun t => t.tx == [.txByte 0x46, .txByte 0x00, .txByte 0xFF, .txEnd]) = true := by decide
theorem test_reserved7 :
    after (exec .reserved7 (openWith 0xFF false)) (fun t => t.err && t.errCode == .illegalOp && t.phase == .opened) = true := by
  decide
theorem test_frozen :
    after (exec .crcRead faultState) (fun t => t.rsp == [] && t.errCode == .illegalOp) = true := by decide

/-! ## Transactions and frame rows: 95_test_vectors.md sections 2.6 and 3 -/

theorem test_checksum : after (exec (.checksum [0xBE, 0xEF]) State.reset)
    (fun t => t.rsp == [.rspCrc 0x92] && t.crc == 0x92 && t.tx == []) = true := by decide +kernel
theorem test_verify : after (exec (.verify [0x00, 0x02] 0xE2) State.reset) (fun t => t.rsp == [.rspMatch false]) = true := by
  decide +kernel
theorem test_buildWrite : after (exec (.buildWrite 0xFF 0xFF [0xAB]) State.reset)
    (fun t => t.frames == [[0xFF, 0xFF, 0xAB, 0xBA]] && t.crc == 0xBA && t.nonempty) = true := by decide
theorem test_frameF0 : after (exec (.frameF0 0x00 0x00) State.reset) (fun t => t.frames == [[0x00, 0x00]]) = true := by
  decide
theorem test_frameF1 : after (exec (.frameF1 0xFF 0xFF [0xAB]) State.reset)
    (fun t => t.frames == [[0xFF, 0xFF, 0xAB, 0xBA]]) = true := by decide
theorem test_readArticleCode : after (exec .readArticleCode State.reset)
    (fun t => t.tx == [.txByte 0xD0, .txByte 0x25, .txEnd] && t.crc == 0xFF) = true := by decide
theorem test_readSerialNumber : after (exec .readSerialNumber State.reset) (fun t => t.frames == [[0xD0, 0x33]]) = true := by
  decide
theorem test_readCleaningInterval :
    after (exec .readCleaningInterval State.reset) (fun t => t.frames == [[0x80, 0x04]]) = true := by decide
theorem test_startMeasurementPm :
    after (exec .startMeasurementPm State.reset) (fun t => t.frames == [[0x00, 0x10, 0x03, 0x00, 0xAC]]) = true := by decide +kernel
theorem test_stopMeasurementPm : after (exec .stopMeasurementPm State.reset) (fun t => t.frames == [[0x01, 0x04]]) = true := by
  decide
theorem test_readMeasInterval : after (exec .readMeasInterval State.reset) (fun t => t.frames == [[0x46, 0x00]]) = true := by
  decide
theorem test_writeMeasInterval : after (exec (.writeMeasInterval 0x0708) State.reset)
    (fun t => t.frames == [[0x46, 0x00, 0x07, 0x08, 0x96]]) = true := by decide +kernel
theorem test_triggerContMeas : after (exec (.triggerContMeas 0x03F5) State.reset)
    (fun t => t.frames == [[0x00, 0x10, 0x03, 0xF5, 0xDB]]) = true := by decide +kernel
theorem test_pollReady : after (exec .pollReady State.reset) (fun t => t.frames == [[0x02, 0x02]]) = true := by decide
theorem test_readMeasResult : after (exec .readMeasResult State.reset) (fun t => t.frames == [[0x03, 0x00]]) = true := by
  decide

/-! ## The step, the port and reset -/

theorem test_step_word :
    after (step (State.reset.withFetchWord 24 0x100BE)) (fun t => t.crc == 0x0C && t.port == []) = true := by decide
theorem test_step_frame :
    after (step (State.reset.withFetchWord 16 0xD025)) (fun t => t.frames == [[0xD0, 0x25]]) = true := by decide
/-- Program P6, step 6: reset in a faulted open frame; the bytes stay in `tx` and are part of no frame. -/
theorem test_step_reset :
    after (step { openOne with err := true, errCode := .seqError, port := [.reset] })
      (fun t => t.crc == 0xFF && t.phase == .idle && !t.err && t.tx.length == 3 && t.frames == [] && t.openRun == [] &&
        t.cuts == [3]) = true := by decide
/-- Program P6, from step 6 on: the next frame begins anew. -/
theorem test_frame_after_reset :
    after (exec .startMeasurementPm (resetEvent openOne)) (fun t => t.frames == [[0x00, 0x10, 0x03, 0x00, 0xAC]]) = true := by
  decide +kernel
theorem test_step_unpacks :
    after (step (withPort State.reset [.issue (.sequence [0x00000, 0x60000])]))
      (fun t => t.port == [.issue (.word 0x00000), .issue (.word 0x60000)]) = true := by decide
theorem test_step_rejects :
    step (withPort State.reset [.issue (.frame [0x46])]) = .refused (.notAnInstruction (.notAFrame [0x46])) := rfl
theorem test_status : faultState.status = (1, 1) ∧ State.reset.status = (0, 0) := by decide
theorem test_listing_frmStart : listing (.frmStart 0x46 0x00) = "FRM.START 0x46, 0x00" := by decide
theorem test_listing_verify : listing (.verify [0x00, 0x02] 0xE3) = "VERIFY([0x00, 0x02], 0xE3)" := by decide

/-! ## Witnesses: what meets the hypotheses of each statement that has any -/

/-- `err` 0 and IDLE; `err` 0 and OPEN; `err` 1: the three premises of the commands' statements. -/
theorem witness_CrcInitRule :
    Boundary (idleWith 0x92 true) ∧ (idleWith 0x92 true).err = false ∧ (idleWith 0x92 true).phase = .idle ∧
    (openWith 0xFF false).err = false ∧ (openWith 0xFF false).phase = .opened ∧ faultState.err = true := by
  refine ⟨⟨rfl, rfl⟩, ?_⟩; decide

theorem witness_CrcUpdateRule :
    (idleWith 0xFF false).err = false ∧ (idleWith 0xFF false).phase = .idle ∧
    (openWith 0xFF true).err = false ∧ (openWith 0xFF true).phase = .opened ∧ faultState.err = true := by decide

theorem witness_CrcReadRule :
    Boundary (idleWith 0x92 false) ∧ (openWith 0xFF true).err = false ∧ (openWith 0xFF true).phase = .opened ∧
    faultState.err = true := by
  refine ⟨⟨rfl, rfl⟩, ?_⟩; decide

theorem witness_CrcCheckRule :
    Boundary (idleWith 0xE3 false) ∧ (idleWith 0xE3 false).crc = 0xE3 ∧ (idleWith 0xE3 false).crc ≠ 0xE2 ∧
    (openWith 0xFF true).err = false ∧ (openWith 0xFF true).phase = .opened ∧ faultState.err = true := by
  refine ⟨⟨rfl, rfl⟩, ?_⟩; decide

theorem witness_FrmStartRule :
    (idleWith 0x92 true).err = false ∧ (idleWith 0x92 true).phase = .idle ∧
    (openWith 0xFF false).err = false ∧ (openWith 0xFF false).phase = .opened ∧ faultState.err = true := by decide

theorem witness_FrmDataRule :
    (openWith 0xFF false).err = false ∧ (openWith 0xFF false).phase = .opened ∧
    (idleWith 0xFF false).err = false ∧ (idleWith 0xFF false).phase = .idle ∧ faultState.err = true := by decide

theorem witness_FrmEndRule :
    (openWith 0xE3 true).err = false ∧ (openWith 0xE3 true).phase = .opened ∧ (openWith 0xE3 true).nonempty = true ∧
    (openWith 0xFF false).err = false ∧ (openWith 0xFF false).phase = .opened ∧
    (openWith 0xFF false).nonempty = false ∧ Boundary (idleWith 0xFF false) ∧ faultState.err = true := by
  refine ⟨by decide, by decide, by decide, by decide, by decide, by decide, ⟨rfl, rfl⟩, by decide⟩

theorem witness_ReservedOpcodeTakesIllegalOp :
    (idleWith 0xFF false).err = false ∧ (openWith 0xFF false).err = false ∧ faultState.err = true := by decide

theorem witness_FaultEntryWritesOnlyErr :
    (idleWith 0x92 true).err = false ∧ (idleWith 0x92 true).phase = .idle ∧
    (∃ d, Instr.frmData 0x12 = .frmData d) ∧
    openOne.err = false ∧ openOne.phase = .opened ∧ Instr.pollReady ≠ .frmEnd ∧
    (∀ d, Instr.pollReady ≠ .frmData d) ∧ Instr.pollReady ≠ .reserved7 :=
  ⟨rfl, rfl, ⟨_, rfl⟩, rfl, rfl, by decide, fun _ h => Instr.noConfusion h, by decide⟩

theorem witness_LegalSequencesAreTheLanguage :
    Boundary State.reset ∧ (∀ i ∈ [Instr.frmStart 0xD0 0x25, .frmEnd], isCommandWord i = true) ∧
    LegalSequence [Instr.frmStart 0xD0 0x25, .frmEnd] ∧ isCrcCommand .crcInit = true ∧
    openOne.err = false ∧ openOne.phase = .opened :=
  ⟨⟨rfl, rfl⟩, by decide, .frame 0xD0 0x25 [] [] .nil, rfl, rfl, rfl⟩

theorem witness_PhaseTransitions :
    (idleWith 0xFF false).err = false ∧ (idleWith 0xFF false).phase = .idle ∧ isCrcCommand (.crcCheck 0xFF) = true ∧
    openOne.err = false ∧ openOne.phase = .opened ∧ faultState.err = true ∧
    (withPort faultState [.reset]).port = .reset :: [] := by decide

theorem witness_FaultedStateIsFrozen :
    (withPort faultState [.issue (.word 0x20000)]).err = true ∧
    (withPort faultState [.issue (.word 0x20000)]).port = .issue (.word 0x20000) :: [] ∧
    step (withPort faultState [.issue (.word 0x20000)]) = .next (withPort faultState []) := ⟨rfl, rfl, rfl⟩

theorem witness_OnlyResetClearsError :
    (withPort faultState [.reset]).err = true ∧
    step (withPort faultState [.reset]) = .next (resetEvent (withPort faultState [])) ∧
    step (withPort faultState [.issue (.word 0x00000)]) = .next (withPort faultState []) := ⟨rfl, rfl, rfl⟩

theorem witness_HistoriesOnlyGrow :
    step (withPort State.reset [.issue (.word 0x44600)]) =
      .next { State.reset with tx := [.txByte 0x46, .txByte 0x00], phase := .opened } := rfl

theorem witness_HistoriesAndPortAreNeverRead : exec .crcInit (idleWith 0x92 false) = .next (idleWith 0xFF false) := rfl

theorem witness_BuildWriteFrameLayout : 1 ≤ ([0xAB] : List Byte).length := by decide

theorem witness_ChecksumSentAsPayloadEndsInZero : ([0x03] : List Byte) ≠ [] := by decide

theorem witness_OneByteChangeChangesChecksum : (0x00 : Byte) ≠ 0x01 := by decide

theorem witness_DecodeInvertsEncode :
    Instr.wellFormed (.triggerContMeas 0x0301) = true ∧ Instr.triggerContMeas 0x0301 ≠ .triggerContMeas 0x0300 ∧
    (∀ hi lo, Instr.triggerContMeas 0x0301 ≠ .frameF0 hi lo) ∧
    (∀ hi lo p, Instr.triggerContMeas 0x0301 ≠ .frameF1 hi lo p) ∧
    ((0xD0, 0x26) : Byte × Byte) ∉ [((0xD0, 0x25) : Byte × Byte), (0xD0, 0x33), (0x80, 0x04), (0x01, 0x04), (0x46, 0x00),
      (0x02, 0x02), (0x03, 0x00)] ∧
    ([0x03, 0x00, 0x00] : List Byte) ≠ [] ∧
    ¬ (([0x03, 0x00, 0x00] : List Byte).length = 2 ∧ (((0x00, 0x10) : Byte × Byte) = (0x00, 0x10) ∨
      ((0x00, 0x10) : Byte × Byte) = (0x46, 0x00))) :=
  ⟨by decide, by decide, fun _ _ h => Instr.noConfusion h, fun _ _ _ h => Instr.noConfusion h, by decide, by decide,
    by decide⟩

theorem witness_EncodeInvertsDecode :
    decode (.frame [0x00, 0x10, 0x03, 0x00, 0xAC]) = .ok .startMeasurementPm ∧
    decode (.sequence [0x4D025, 0x60000]) = .ok (.buildWrite 0xD0 0x25 []) ∧
    decode (.word 0x7ABCD) = .ok .reserved7 := by decide +kernel

theorem witness_StepRunsDecodedInstruction :
    (withPort State.reset [.issue (.word 0x100BE)]).port = .issue (.word 0x100BE) :: [] ∧
    decode (.word 0x100BE) = .ok (.crcUpdate 0xBE) := ⟨rfl, rfl⟩

theorem witness_ResetRestoresEveryVariable : (withPort openOne [.reset]).port = .reset :: [] := rfl

theorem witness_StepWithoutInstruction :
    State.reset.port = [] ∧
    (withPort State.reset [.issue (.sequence [0x00000])]).port = .issue (.sequence [0x00000]) :: [] ∧
    decode (.sequence [0x00000]) = .error (.notATransaction [0x00000]) ∧
    (withPort State.reset [.issue (.frame [0x46, 0x00, 0x00])]).port = .issue (.frame [0x46, 0x00, 0x00]) :: [] ∧
    decode (.frame [0x46, 0x00, 0x00]) = .error (.notAFrame [0x46, 0x00, 0x00]) ∧ State.reset.err = false :=
  ⟨rfl, rfl, rfl, rfl, rfl, rfl⟩

theorem witness_NothingStopsTheBlock : (withPort faultState [issueWord 0x7FFFF]).port = issueWord 0x7FFFF :: [] := rfl

theorem witness_ChecksInOrder :
    (withPort faultState [issueWord 0x70000]).err = true ∧ State.reset.err = false ∧
    fieldOp 0x70000 = 7 ∧ fieldOp 0x6FFFF ≠ 7 ∧
    ¬ ((idleWith 0xFF false).phase = .opened ↔ (fieldOp 0x6FFFF = 5 ∨ fieldOp 0x6FFFF = 6)) ∧
    (openOne.phase = .opened ↔ (fieldOp 0x6FFFF = 5 ∨ fieldOp 0x6FFFF = 6)) ∧
    ((idleWith 0xFF false).phase = .opened ↔ (fieldOp 0x4FFFF = 5 ∨ fieldOp 0x4FFFF = 6)) := by decide

theorem witness_ChecksumTransaction : Boundary (idleWith 0x92 true) := ⟨rfl, rfl⟩

theorem witness_VerifyTransaction : Boundary (idleWith 0x00 false) := ⟨rfl, rfl⟩

theorem witness_BuildWriteTransaction : Boundary (idleWith 0x92 true) := ⟨rfl, rfl⟩

theorem witness_TransactionsForgetThePast :
    isCommandWord (.checksum []) = false ∧ isCommandWord .pollReady = false ∧ Boundary (idleWith 0x92 true) :=
  ⟨rfl, rfl, rfl, rfl⟩

theorem witness_MessageWithoutInit : Boundary (idleWith 0x92 false) := ⟨rfl, rfl⟩

theorem witness_FrameRowsAreBuildWrite :
    frameOf (.writeMeasInterval 2) = some ((0x46, 0x00), [0x00, 0x02]) ∧ frameOf (.checksum []) = none ∧
    Boundary State.reset := ⟨by decide, rfl, rfl, rfl⟩

theorem witness_AddressFrameRows : Boundary (idleWith 0x92 true) := ⟨rfl, rfl⟩

theorem witness_WordFrameRows : Boundary (idleWith 0x92 true) := ⟨rfl, rfl⟩

theorem witness_PayloadFrameRow : 1 ≤ ([0xAB] : List Byte).length ∧ Boundary State.reset := ⟨by decide, rfl, rfl⟩

theorem witness_DecodedFrameIsSent :
    decode (.frame [0x46, 0x00, 0x00, 0x02, 0xE3]) = .ok (.writeMeasInterval 2) ∧ Boundary (idleWith 0x92 true) :=
  ⟨by decide +kernel, rfl, rfl⟩

/-- An open frame with one payload byte meets the invariant. -/
theorem witness_StepKeepsInvariant :
    StateInv (withPort openOne [.issue (.word 0x50002)]) ∧
    step (withPort openOne [.issue (.word 0x50002)]) =
      .next { openOne with crc := 0xE3, tx := openOne.tx ++ [.txByte 0x02] } :=
  ⟨⟨by decide, by decide, fun _ h => absurd h (by decide), fun _ _ => ⟨0x46, 0x00, [0x00], by decide, by decide, rfl⟩⟩, rfl⟩

theorem witness_StatusLevels : StateInv faultState :=
  ⟨by decide, by decide, fun h => absurd h (by decide), fun h => absurd h (by decide)⟩

theorem witness_BuildWriteAddsOneFrame : StateInv (resetEvent openOne) ∧ Boundary (resetEvent openOne) :=
  ⟨⟨by decide, by decide, fun _ _ => by decide, fun _ h => absurd h (by decide)⟩, rfl, rfl⟩

theorem witness_ResetAbandonsOpenFrame :
    StateInv (withPort openOne [.reset]) ∧ (withPort openOne [.reset]).port = .reset :: [] :=
  ⟨⟨by decide, by decide, fun _ h => absurd h (by decide), fun _ _ => ⟨0x46, 0x00, [0x00], by decide, by decide, rfl⟩⟩, rfl⟩

end Sys2Proof.Tests
end

section
/-! PROOFS about the checksum's parameters (00_scope.md R4): the block's round is the parameterised round at the fixed
polynomial, so the block's checksum is the parameterised CRC at the fixed values. -/

namespace Sys2Proof.Machine

/-- The block's round is the parameterised round at `POLY` (R70). -/
theorem crcRound_eq_roundOf (c : Byte) : crcRound c = roundOf Config.poly c := rfl

/-- The block's rounds are the parameterised rounds at `POLY` (R70, R71). -/
theorem crcRounds_eq_roundsOf (n : Nat) (c : Byte) : crcRounds n c = roundsOf Config.poly n c := by
  induction n generalizing c with
  | zero => rfl
  | succ n ih => rw [crcRounds_succ, crcRound_eq_roundOf, ih, roundsOf]

/-- `crc_from` (R72) is a left fold of the parameterised byte step at `POLY`. -/
theorem crcFrom_eq_foldl_roundsOf (c : Byte) (bs : List Byte) :
    crcFrom c bs = bs.foldl (fun t d => roundsOf Config.poly 8 (t ^^^ d)) c := by
  induction bs generalizing c with
  | nil => rfl
  | cons b rest ih =>
    rw [crcFrom_cons, List.foldl_cons, ih, crcByte_eq_rounds, crcRounds_eq_roundsOf]

/-- With neither reflection the parameterised CRC feeds the bytes as they are and reverses nothing at the end. -/
theorem checksumOf_unreflected (poly init xorOut : Byte) (bs : List Byte) :
    checksumOf { poly, init, xorOut, refIn := false, refOut := false } bs =
      bs.foldl (fun t d => roundsOf poly 8 (t ^^^ d)) init ^^^ xorOut := rfl

/-- The block's checksum is the parameterised CRC at the block's own parameters. -/
theorem checksum_eq_checksumOf_crcParams (bs : List Byte) : checksum bs = checksumOf Config.crcParams bs := by
  rw [checksum, readOut, crcMsg_eq_crcFrom, crcFrom_eq_foldl_roundsOf, Config.crcParams, checksumOf_unreflected]

/-- Settles O6: the constants by evaluation; for the messages, `Config.crcParams` holds exactly the values the
statement writes out. -/
theorem checksumHasTheFixedParameters : Obligations.ChecksumHasTheFixedParameters := by
  unfold Obligations.ChecksumHasTheFixedParameters
  exact ⟨rfl, rfl, rfl, rfl, rfl, rfl, rfl, checksum_eq_checksumOf_crcParams⟩

end Sys2Proof.Machine
end

section
/-! PROOFS about the state after reset (10_state.md R23): a reset leaves `INIT` in the register, so a CRC.UPDATE may
start a message with no CRC.INIT before it. -/

namespace Sys2Proof.Machine

/-- A step takes an input that decodes to an instruction off the port and runs the instruction. -/
theorem step_of_decode_ok {s : State} {x : Input} {rest : List PortEvent} {i : Instr}
    (hport : s.port = .issue x :: rest) (hdec : decode x = .ok i) :
    step s = exec i { s with port := rest } := by
  simp only [step, takePort_cons hport, hdec]

/-- Outside a frame CRC.UPDATE absorbs its byte and changes nothing else (R77). -/
theorem exec_crcUpdate_of_idle {s : State} (he : s.err = false) (hp : s.phase = .idle) (d : Byte) :
    exec (.crcUpdate d) s = .next (setCrc (crcByte s.crc d) s) :=
  congrArg Host.Outcome.next (whenLegal_of_legal he hp)

theorem checksum_singleton (d : Byte) : checksum [d] = crcByte Config.init d := by
  rw [checksum_eq_crcMsg, crcMsg_eq_crcFrom, crcFrom_cons, crcFrom_nil]

/-- A CRC.UPDATE straight after reset leaves the checksum of its one byte in the register, whichever byte it is. -/
theorem step_reset_crcUpdate {w : CmdWord} {d : Byte} (hw : decodeWord w = .crcUpdate d) :
    step { State.reset with port := [.issue (.word w)] } = .next { State.reset with crc := checksum [d] } := by
  have hdec : decode (.word w) = .ok (.crcUpdate d) := congrArg Except.ok hw
  rw [step_of_decode_ok rfl hdec, exec_crcUpdate_of_idle rfl rfl, checksum_singleton]
  rfl

/-- Settles O23: the values are those `State.reset` is defined with; the word 0x10002 is CRC.UPDATE 0x02, and an
update straight after reset starts a message whatever its byte is. -/
theorem resetStateValues : Obligations.ResetStateValues := by
  unfold Obligations.ResetStateValues
  have hword : decodeWord 0x10002 = .crcUpdate 0x02 := by decide
  exact ⟨rfl, rfl, rfl, rfl, rfl, rfl, rfl, step_reset_crcUpdate hword⟩

end Sys2Proof.Machine
end

section
/-! PROOFS about the two bytes of a 16-bit operand (20_memory.md R33): joining is the concatenation of bit vectors with
the high byte on the left, so splitting and joining are inverse to each other. -/

namespace Sys2Proof.Machine

theorem joinBytes_eq_append (hi lo : Byte) : joinBytes hi lo = hi ++ lo := by
  rw [joinBytes, ← BitVec.setWidth_append_eq_shiftLeft_setWidth_or, BitVec.setWidth_eq]

@[simp] theorem hiByte_joinBytes (hi lo : Byte) : hiByte (joinBytes hi lo) = hi := by
  rw [joinBytes_eq_append, hiByte, BitVec.extractLsb'_append_eq_left]

@[simp] theorem loByte_joinBytes (hi lo : Byte) : loByte (joinBytes hi lo) = lo := by
  rw [joinBytes_eq_append, loByte, BitVec.extractLsb'_append_eq_right]

@[simp] theorem joinBytes_hiByte_loByte (v : Word16) : joinBytes (hiByte v) (loByte v) = v :=
  (joinBytes_eq_append _ _).trans BitVec.extractLsb'_append_extractLsb'

theorem wordPayload_joinBytes (hi lo : Byte) : wordPayload (joinBytes hi lo) = [hi, lo] := by
  rw [wordPayload, hiByte_joinBytes, loByte_joinBytes]

/-- Settles O20: the two bytes are R33's bit ranges by definition; the inverses are the joining lemmas. -/
theorem wordOperandHighByteFirst : Obligations.WordOperandHighByteFirst := by
  unfold Obligations.WordOperandHighByteFirst
  exact ⟨fun _ => rfl, joinBytes_hiByte_loByte, wordPayload_joinBytes⟩

end Sys2Proof.Machine
end

section
/-! PROOFS about the command word (30_encoding.md R49 to R56): packing is the concatenation of the three fields with
`op` on the left, so a word and its fields determine each other, and the decoder sees the fields alone. -/

namespace Sys2Proof.Machine

theorem packWord_eq_append (op : BitVec 3) (a b : Byte) : packWord op a b = op ++ (a ++ b) :=
  calc packWord op a b
      = op.setWidth 19 <<< 16 ||| (a ++ b).setWidth 19 := by
        rw [packWord, BitVec.or_assoc, BitVec.setWidth_append_eq_shiftLeft_setWidth_or]
    _ = op ++ (a ++ b) := by
        rw [← BitVec.setWidth_append_eq_shiftLeft_setWidth_or, BitVec.setWidth_eq]

@[simp] theorem fieldOp_packWord (op : BitVec 3) (a b : Byte) : fieldOp (packWord op a b) = op := by
  rw [packWord_eq_append, fieldOp, BitVec.extractLsb'_append_eq_left]

@[simp] theorem fieldA_packWord (op : BitVec 3) (a b : Byte) : fieldA (packWord op a b) = a := by
  rw [packWord_eq_append, fieldA, BitVec.extractLsb'_append_eq_of_add_le (by decide),
    BitVec.extractLsb'_append_eq_left]

@[simp] theorem fieldB_packWord (op : BitVec 3) (a b : Byte) : fieldB (packWord op a b) = b := by
  rw [packWord_eq_append, fieldB, BitVec.extractLsb'_append_eq_of_add_le (by decide),
    BitVec.extractLsb'_append_eq_right]

@[simp] theorem packWord_fields (w : CmdWord) : packWord (fieldOp w) (fieldA w) (fieldB w) = w := by
  have hlow : fieldA w ++ fieldB w = w.extractLsb' 0 16 := BitVec.extractLsb'_append_extractLsb'_eq_extractLsb' rfl
  have hall : fieldOp w ++ w.extractLsb' 0 16 = w := BitVec.extractLsb'_append_extractLsb'
  rw [packWord_eq_append, hlow, hall]

theorem toNat_packWord (op : BitVec 3) (a b : Byte) :
    (packWord op a b).toNat = op.toNat * 2 ^ 16 + a.toNat * 2 ^ 8 + b.toNat := by
  have hlow : (a ++ b).toNat = a.toNat * 2 ^ 8 + b.toNat := by
    rw [BitVec.toNat_append, ← Nat.shiftLeft_add_eq_or_of_lt b.isLt, Nat.shiftLeft_eq]
  rw [packWord_eq_append, BitVec.toNat_append, ← Nat.shiftLeft_add_eq_or_of_lt (a ++ b).isLt, Nat.shiftLeft_eq, hlow,
    Nat.add_assoc]

/-- Settles O15: the numeric value and the two round trips of packing. -/
theorem commandWordFields : Obligations.CommandWordFields := by
  unfold Obligations.CommandWordFields
  exact ⟨toNat_packWord, fun op a b => ⟨fieldOp_packWord op a b, fieldA_packWord op a b, fieldB_packWord op a b⟩,
    packWord_fields⟩

/-- The opcode map (R53) as a function of the three fields. -/
def commandOf (op : BitVec 3) (a b : Byte) : Instr :=
  match op.toNat with
  | 0 => .crcInit
  | 1 => .crcUpdate b
  | 2 => .crcRead
  | 3 => .crcCheck b
  | 4 => .frmStart a b
  | 5 => .frmData b
  | 6 => .frmEnd
  | _ => .reserved7

theorem decodeWord_eq_commandOf (w : CmdWord) : decodeWord w = commandOf (fieldOp w) (fieldA w) (fieldB w) := rfl

theorem decodeWord_packWord (op : BitVec 3) (a b : Byte) : decodeWord (packWord op a b) = commandOf op a b := by
  rw [decodeWord_eq_commandOf, fieldOp_packWord, fieldA_packWord, fieldB_packWord]

/-- A word with `a` zero is the opcode in place and `b`: the canonical form of a command that ignores `a` (R56). -/
theorem packWord_zero_a (op : BitVec 3) (b : Byte) : packWord op 0 b = op.setWidth 19 <<< 16 ||| b.setWidth 19 := by
  simp [packWord]

/-- Settles O16: of a packed word the decoder reads the opcode map at its fields, and the row of an opcode does not
mention the ignored ones; the encoder packs them as zero. -/
theorem commandOpcodeMap : Obligations.CommandOpcodeMap := by
  unfold Obligations.CommandOpcodeMap
  exact ⟨decodeWord_packWord 0, decodeWord_packWord 1, decodeWord_packWord 2, decodeWord_packWord 3,
    decodeWord_packWord 4, decodeWord_packWord 5, decodeWord_packWord 6, decodeWord_packWord 7,
    rfl, fun d => congrArg Input.word (packWord_zero_a 1 d), rfl, fun c => congrArg Input.word (packWord_zero_a 3 c),
    fun _ _ => rfl, fun d => congrArg Input.word (packWord_zero_a 5 d), rfl, rfl⟩

end Sys2Proof.Machine
end

section
/-! PROOFS about the reserved opcode (30_encoding.md R55, 60_exceptions.md R130): it is checked against `err` alone. -/

namespace Sys2Proof.Machine

theorem exec_reserved7_of_live {s : State} (he : s.err = false) : exec .reserved7 s = .next (takeFault .illegalOp s) :=
  congrArg Host.Outcome.next (whenLive_of_live he)

theorem exec_reserved7_of_err {s : State} (he : s.err = true) : exec .reserved7 s = .next s :=
  congrArg Host.Outcome.next (whenLive_of_err he)

/-- Settles O34: the phase plays no part, because the reserved opcode goes through the check of `err` only. -/
theorem reservedOpcodeTakesIllegalOp : Obligations.ReservedOpcodeTakesIllegalOp := by
  unfold Obligations.ReservedOpcodeTakesIllegalOp
  exact ⟨decodeWord_packWord 7, fun _ => exec_reserved7_of_live, fun _ => exec_reserved7_of_err⟩

end Sys2Proof.Machine
end

section
/-! PROOFS about the CRC unit's functions (40_crc8.md R71, R72): a byte is an XOR and eight rounds, and a message is
absorbed from left to right, so a concatenation is absorbed one part after the other. -/

namespace Sys2Proof.Machine

theorem crcFrom_append (c : Byte) (as bs : List Byte) : crcFrom c (as ++ bs) = crcFrom (crcFrom c as) bs := by
  induction as generalizing c with
  | nil => rfl
  | cons a as ih => rw [List.cons_append, crcFrom_cons, crcFrom_cons, ih]

/-- Settles O3: the concatenation by induction on its first part; `INIT` is 0xFF, and `XOROUT` is 0. -/
theorem checksumAbsorbsLeftToRight : Obligations.ChecksumAbsorbsLeftToRight := by
  unfold Obligations.ChecksumAbsorbsLeftToRight
  exact ⟨crcFrom_nil, crcFrom_cons, crcFrom_append, crcMsg_eq_crcFrom, fun _ => rfl, checksum_eq_crcMsg⟩

theorem crcByte_eq_eight_rounds (c d : Byte) : crcByte c d =
    crcRound (crcRound (crcRound (crcRound (crcRound (crcRound (crcRound (crcRound (c ^^^ d)))))))) := rfl

/-- Settles O2: the eight rounds unrolled, and the rule's example by evaluation. -/
theorem crcByteIsXorThenEightRounds : Obligations.CrcByteIsXorThenEightRounds := by
  unfold Obligations.CrcByteIsXorThenEightRounds
  exact ⟨crcByte_eq_eight_rounds, by decide⟩

/-- Absorbing the byte the register holds clears it: the XOR gives 0, which every round keeps. -/
theorem crcByte_self (c : Byte) : crcByte c c = 0x00 := by
  rw [crcByte_eq_rounds, BitVec.xor_self]
  decide

end Sys2Proof.Machine
end

section
/-! PROOFS about the CRC unit's commands (40_crc8.md R76 to R79). All four pass the same two checks, so what they do in
an open frame and while `err` is 1 is proved once for any of them; outside a frame each has its own effect. -/

namespace Sys2Proof.Machine

/-- A CRC command is an effect under the checks of a command that is legal outside a frame (60_exceptions.md R129). -/
theorem exec_crcCommand_eq_whenLegal {i : Instr} (hi : isCrcCommand i = true) :
    ∃ effect : State → State, ∀ s, exec i s = .next (whenLegal phaseOutsideFrame effect s) :=
  match i, hi with
  | .crcInit, _ => ⟨_, fun _ => rfl⟩
  | .crcUpdate _, _ => ⟨_, fun _ => rfl⟩
  | .crcRead, _ => ⟨_, fun _ => rfl⟩
  | .crcCheck _, _ => ⟨_, fun _ => rfl⟩

theorem exec_crcCommand_of_err {i : Instr} (hi : isCrcCommand i = true) {s : State} (he : s.err = true) :
    exec i s = .next s := by
  obtain ⟨effect, heffect⟩ := exec_crcCommand_eq_whenLegal hi
  rw [heffect, whenLegal_of_err he]

theorem exec_crcCommand_of_opened {i : Instr} (hi : isCrcCommand i = true) {s : State} (he : s.err = false)
    (hp : s.phase = .opened) : exec i s = .next (faulted .seqError s) := by
  obtain ⟨effect, heffect⟩ := exec_crcCommand_eq_whenLegal hi
  have hillegal : s.phase ≠ phaseOutsideFrame := by rw [hp]; decide
  rw [heffect, whenLegal_of_illegal he hillegal]
  rfl

/-- Outside a frame CRC.INIT loads `INIT` and changes nothing else (R76). -/
theorem exec_crcInit_of_idle {s : State} (he : s.err = false) (hp : s.phase = .idle) :
    exec .crcInit s = .next (setCrc Config.init s) :=
  congrArg Host.Outcome.next (whenLegal_of_legal he hp)

/-- Outside a frame CRC.READ answers the register as it stands and changes nothing else (R78). -/
theorem exec_crcRead_of_idle {s : State} (he : s.err = false) (hp : s.phase = .idle) :
    exec .crcRead s = .next (respond (.rspCrc s.crc) s) := by
  have hlegal : exec .crcRead s = .next (respond (.rspCrc (readOut s.crc)) s) :=
    congrArg Host.Outcome.next (whenLegal_of_legal he hp)
  rw [hlegal, readOut_eq]

/-- Outside a frame CRC.CHECK answers the verdict and changes nothing else (R79). -/
theorem exec_crcCheck_of_idle {s : State} (he : s.err = false) (hp : s.phase = .idle) (c : Byte) :
    exec (.crcCheck c) s = .next (respond (.rspMatch (matchFlag s.crc c)) s) :=
  congrArg Host.Outcome.next (whenLegal_of_legal he hp)

theorem matchFlag_self (c : Byte) : matchFlag c c = true := beq_self_eq_true c

theorem matchFlag_of_ne {crc c : Byte} (h : crc ≠ c) : matchFlag crc c = false := beq_false_of_ne h

theorem exec_crcCheck_of_match {s : State} (he : s.err = false) (hp : s.phase = .idle) :
    exec (.crcCheck s.crc) s = .next (respond (.rspMatch true) s) := by
  rw [exec_crcCheck_of_idle he hp, matchFlag_self]

theorem exec_crcCheck_of_mismatch {s : State} {c : Byte} (he : s.err = false) (hp : s.phase = .idle)
    (h : s.crc ≠ c) : exec (.crcCheck c) s = .next (respond (.rspMatch false) s) := by
  rw [exec_crcCheck_of_idle he hp, matchFlag_of_ne h]

theorem execAll_nil (s : State) : execAll [] s = .next s := rfl

/-- A run whose first instruction gives a next state goes on from there. -/
theorem execAll_cons_of_next {i : Instr} {s t : State} (h : exec i s = .next t) (rest : List Instr) :
    execAll (i :: rest) s = execAll rest t := by
  rw [execAll, h]

/-- Two CRC.INIT in a row are as one: the first leaves the block at a boundary, and the second loads the same value. -/
theorem execAll_crcInit_crcInit {s : State} (hs : Boundary s) : execAll [.crcInit, .crcInit] s = exec .crcInit s := by
  obtain ⟨he, hp⟩ := hs
  have hsecond : exec .crcInit (setCrc Config.init s) = .next (setCrc Config.init s) := exec_crcInit_of_idle he hp
  rw [execAll_cons_of_next (exec_crcInit_of_idle he hp), execAll_cons_of_next hsecond, execAll_nil,
    exec_crcInit_of_idle he hp]

/-- Settles O27: the effect outside a frame, the two checks all CRC commands share, and idempotence; after reset the
register holds `INIT` already. -/
theorem crcInitRule : Obligations.CrcInitRule := by
  unfold Obligations.CrcInitRule
  exact ⟨rfl, decodeWord_packWord 0, fun _ => exec_crcInit_of_idle, fun _ => exec_crcCommand_of_opened rfl,
    fun _ => exec_crcCommand_of_err rfl, fun _ => execAll_crcInit_crcInit, exec_crcInit_of_idle rfl rfl⟩

/-- Settles O28: the effect outside a frame and the two checks all CRC commands share; of the rule's values, all but
`crc_byte(c, c)` are closed. -/
theorem crcUpdateRule : Obligations.CrcUpdateRule := by
  unfold Obligations.CrcUpdateRule
  exact ⟨fun d => congrArg Input.word (packWord_zero_a 1 d), decodeWord_packWord 1,
    fun _ d he hp => exec_crcUpdate_of_idle he hp d, fun _ _ => exec_crcCommand_of_opened rfl,
    fun _ _ => exec_crcCommand_of_err rfl, by decide, crcByte_self, by decide, by decide⟩

/-- At a boundary CRC.READ straight after CRC.INIT answers `INIT`. -/
theorem execAll_crcInit_crcRead {s : State} (hs : Boundary s) :
    execAll [.crcInit, .crcRead] s = .next (respond (.rspCrc Config.init) (setCrc Config.init s)) := by
  obtain ⟨he, hp⟩ := hs
  have hread : exec .crcRead (setCrc Config.init s) = .next (respond (.rspCrc Config.init) (setCrc Config.init s)) :=
    exec_crcRead_of_idle he hp
  rw [execAll_cons_of_next (exec_crcInit_of_idle he hp), execAll_cons_of_next hread, execAll_nil]

/-- Settles O29: the effect outside a frame and the two checks all CRC commands share; reset and CRC.INIT both leave
`INIT` in the register that is answered. -/
theorem crcReadRule : Obligations.CrcReadRule := by
  unfold Obligations.CrcReadRule
  exact ⟨rfl, decodeWord_packWord 2, fun _ => exec_crcRead_of_idle, fun _ => exec_crcCommand_of_opened rfl,
    fun _ => exec_crcCommand_of_err rfl, exec_crcRead_of_idle rfl rfl, fun _ => execAll_crcInit_crcRead⟩

/-- The rule's example (R79): the message 00 02 has the checksum 0xE3, which the first check meets; the mismatch of the
second is answered too, because the match before it left the register as it was. -/
theorem execAll_crcCheck_example {s : State} (hs : Boundary s) :
    execAll [.crcInit, .crcUpdate 0x00, .crcUpdate 0x02, .crcCheck 0xE3, .crcCheck 0xE2] s =
      .next (respond (.rspMatch false) (respond (.rspMatch true) (setCrc 0xE3 s))) := by
  obtain ⟨he, hp⟩ := hs
  have hfirst : crcByte Config.init 0x00 = 0xAC := by decide
  have hsecond : crcByte 0xAC 0x02 = 0xE3 := by decide
  have hupdate (c d : Byte) : exec (.crcUpdate d) (setCrc c s) = .next (setCrc (crcByte c d) s) :=
    exec_crcUpdate_of_idle (s := setCrc c s) he hp d
  have hmatch : exec (.crcCheck 0xE3) (setCrc 0xE3 s) = .next (respond (.rspMatch true) (setCrc 0xE3 s)) :=
    exec_crcCheck_of_match he hp
  have hmismatch : exec (.crcCheck 0xE2) (respond (.rspMatch true) (setCrc 0xE3 s)) =
      .next (respond (.rspMatch false) (respond (.rspMatch true) (setCrc 0xE3 s))) :=
    exec_crcCheck_of_mismatch (s := respond _ (setCrc 0xE3 s)) he hp (by decide : (0xE3 : Byte) ≠ 0xE2)
  rw [execAll_cons_of_next (exec_crcInit_of_idle he hp), execAll_cons_of_next (hupdate _ _), hfirst,
    execAll_cons_of_next (hupdate _ _), hsecond, execAll_cons_of_next hmatch, execAll_cons_of_next hmismatch,
    execAll_nil]

/-- Two responses in a row stand in the history in the order given. -/
theorem respond_respond (e₁ e₂ : RspEvent) (s : State) :
    respond e₂ (respond e₁ s) = { s with rsp := s.rsp ++ [e₁, e₂] } := by
  simp [respond]

/-- Settles O30: the verdict of each comparison outside a frame, the two checks all CRC commands share, and the rule's
example. -/
theorem crcCheckRule : Obligations.CrcCheckRule := by
  unfold Obligations.CrcCheckRule
  refine ⟨fun c => congrArg Input.word (packWord_zero_a 3 c), decodeWord_packWord 3, fun _ => exec_crcCheck_of_match,
    fun _ _ => exec_crcCheck_of_mismatch, fun _ _ => exec_crcCommand_of_opened rfl,
    fun _ _ => exec_crcCommand_of_err rfl, fun s hs => ?_⟩
  rw [execAll_crcCheck_example hs, respond_respond]
  rfl

end Sys2Proof.Machine
end

section
/-! PROOFS about `build_write` (41_frame.md R90, R93): with a payload the frame has a checksum, and the address is
outside it. -/

namespace Sys2Proof.Machine

theorem buildWrite_of_payload (hi lo : Byte) {payload : List Byte} (h : 1 ≤ payload.length) :
    buildWrite hi lo payload = [hi, lo] ++ payload ++ [checksum payload] := by
  obtain ⟨p, ps, rfl⟩ := List.exists_cons_of_length_pos h
  exact buildWrite_cons hi lo p ps

/-- What follows the two address bytes does not depend on them (R93). -/
theorem buildWrite_drop_address (hi lo hi' lo' : Byte) (payload : List Byte) :
    (buildWrite hi lo payload).drop 2 = (buildWrite hi' lo' payload).drop 2 := by
  cases payload with
  | nil => rfl
  | cons p ps => rw [buildWrite_cons, buildWrite_cons]; rfl

/-- Settles O11: the two shapes of a frame, and the tail that the address does not reach. -/
theorem buildWriteFrameLayout : Obligations.BuildWriteFrameLayout := by
  unfold Obligations.BuildWriteFrameLayout
  exact ⟨buildWrite_nil, fun hi lo _ => buildWrite_of_payload hi lo, buildWrite_drop_address⟩

end Sys2Proof.Machine
end

section
/-! PROOFS about the FRM unit's commands (41_frame.md R94 to R96). FRM.START is legal where the CRC commands are, and
FRM.DATA and FRM.END in an open frame only: the fault in the wrong phase is proved once for each of the two groups. -/

namespace Sys2Proof.Machine

/-- A command that is legal outside a frame takes SEQ_ERROR in an open one (60_exceptions.md R129, R131). -/
theorem exec_outsideFrame_of_opened {i : Instr} (hi : isCrcCommand i = true ∨ ∃ hi lo, i = .frmStart hi lo)
    {s : State} (he : s.err = false) (hp : s.phase = .opened) : exec i s = .next (faulted .seqError s) := by
  obtain hcrc | ⟨hi, lo, rfl⟩ := hi
  · exact exec_crcCommand_of_opened hcrc he hp
  · have hillegal : s.phase ≠ phaseOutsideFrame := by rw [hp]; decide
    exact congrArg Host.Outcome.next (whenLegal_of_illegal he hillegal)

/-- A command that is legal in an open frame takes SEQ_ERROR outside one (R129, R131). -/
theorem exec_insideFrame_of_idle {i : Instr} (hi : i = .frmEnd ∨ ∃ d, i = .frmData d) {s : State}
    (he : s.err = false) (hp : s.phase = .idle) : exec i s = .next (faulted .seqError s) := by
  have hillegal : s.phase ≠ phaseInsideFrame := by rw [hp]; decide
  obtain rfl | ⟨d, rfl⟩ := hi
  · exact congrArg Host.Outcome.next (whenLegal_of_illegal he hillegal)
  · exact congrArg Host.Outcome.next (whenLegal_of_illegal he hillegal)

theorem exec_frmStart_of_err {s : State} (he : s.err = true) (hi lo : Byte) : exec (.frmStart hi lo) s = .next s :=
  congrArg Host.Outcome.next (whenLegal_of_err he)

theorem exec_frmData_of_err {s : State} (he : s.err = true) (d : Byte) : exec (.frmData d) s = .next s :=
  congrArg Host.Outcome.next (whenLegal_of_err he)

theorem exec_frmEnd_of_err {s : State} (he : s.err = true) : exec .frmEnd s = .next s :=
  congrArg Host.Outcome.next (whenLegal_of_err he)

/-- Two bytes emitted in a row stand in the history in the order given. -/
theorem emit_emit (b₁ b₂ : Byte) (s : State) :
    emit b₂ (emit b₁ s) = { s with tx := s.tx ++ [.txByte b₁, .txByte b₂] } := by
  simp [emit]

theorem emitEnd_emit (b : Byte) (s : State) : emitEnd (emit b s) = { s with tx := s.tx ++ [.txByte b, .txEnd] } := by
  simp [emitEnd, emit]

/-- Outside a frame FRM.START emits the address, prepares an empty payload and opens the frame (R94). -/
theorem exec_frmStart_of_idle {s : State} (he : s.err = false) (hp : s.phase = .idle) (hi lo : Byte) :
    exec (.frmStart hi lo) s = .next { s with
      tx := s.tx ++ [.txByte hi, .txByte lo], crc := Config.init, nonempty := false, phase := .opened } := by
  have hlegal : exec (.frmStart hi lo) s =
      .next (setPhase .opened (setNonempty false (setCrc Config.init (emit lo (emit hi s))))) :=
    congrArg Host.Outcome.next (whenLegal_of_legal he hp)
  rw [hlegal, emit_emit]
  rfl

/-- In an open frame FRM.DATA emits its byte and absorbs it (R95). -/
theorem exec_frmData_of_opened {s : State} (he : s.err = false) (hp : s.phase = .opened) (d : Byte) :
    exec (.frmData d) s = .next { s with tx := s.tx ++ [.txByte d], crc := crcByte s.crc d, nonempty := true } :=
  congrArg Host.Outcome.next (whenLegal_of_legal he hp)

/-- In an open frame FRM.END closes it, after the checksum if there is to be one (R96). -/
theorem exec_frmEnd_of_opened {s : State} (he : s.err = false) (hp : s.phase = .opened) :
    exec .frmEnd s = .next (setPhase .idle (emitEnd (if s.nonempty then emit s.crc s else s))) := by
  have hlegal : exec .frmEnd s =
      .next (setPhase .idle (emitEnd (if s.nonempty then emit (readOut s.crc) s else s))) :=
    congrArg Host.Outcome.next (whenLegal_of_legal he hp)
  rw [hlegal, readOut_eq]

theorem exec_frmEnd_of_nonempty {s : State} (he : s.err = false) (hp : s.phase = .opened) (hn : s.nonempty = true) :
    exec .frmEnd s = .next { s with tx := s.tx ++ [.txByte s.crc, .txEnd], phase := .idle } := by
  rw [exec_frmEnd_of_opened he hp, if_pos hn, emitEnd_emit]
  rfl

theorem exec_frmEnd_of_empty {s : State} (he : s.err = false) (hp : s.phase = .opened) (hn : s.nonempty = false) :
    exec .frmEnd s = .next { s with tx := s.tx ++ [.txEnd], phase := .idle } := by
  rw [exec_frmEnd_of_opened he hp, if_neg (Bool.eq_false_iff.mp hn)]
  rfl

/-- Settles O31: the effect outside a frame, the fault of every command that is legal there, and the frozen block. -/
theorem frmStartRule : Obligations.FrmStartRule := by
  unfold Obligations.FrmStartRule
  exact ⟨fun _ _ => rfl, decodeWord_packWord 4, fun _ hi lo he hp => exec_frmStart_of_idle he hp hi lo,
    fun _ hi lo => exec_outsideFrame_of_opened (.inr ⟨hi, lo, rfl⟩), fun _ hi lo he => exec_frmStart_of_err he hi lo,
    rfl⟩

/-- Settles O32: the effect in an open frame, the fault of every command that is legal there only, and the frozen
block; the rule's values are closed. -/
theorem frmDataRule : Obligations.FrmDataRule := by
  unfold Obligations.FrmDataRule
  exact ⟨fun d => congrArg Input.word (packWord_zero_a 5 d), decodeWord_packWord 5,
    fun _ d he hp => exec_frmData_of_opened he hp d, fun _ d => exec_insideFrame_of_idle (.inr ⟨d, rfl⟩),
    fun _ d he => exec_frmData_of_err he d, by decide, by decide⟩

/-- The rule's example (R96): the payload 00 02 has the checksum 0xE3, which FRM.END sends before it closes the
frame; the block is back in the phase it started from. -/
theorem execAll_frm_example {s : State} (hs : Boundary s) :
    execAll [.frmStart 0x46 0x00, .frmData 0x00, .frmData 0x02, .frmEnd] s =
      .next { s with
        tx := s.tx ++ [.txByte 0x46, .txByte 0x00, .txByte 0x00, .txByte 0x02, .txByte 0xE3, .txEnd],
        crc := 0xE3, nonempty := true } := by
  obtain ⟨he, hp⟩ := hs
  have hfirst : crcByte Config.init 0x00 = 0xAC := by decide
  have hsecond : crcByte 0xAC 0x02 = 0xE3 := by decide
  have hdata (tx : List TxEvent) (c d : Byte) (n : Bool) :
      exec (.frmData d) { s with tx := tx, crc := c, nonempty := n, phase := .opened } =
        .next { s with tx := tx ++ [.txByte d], crc := crcByte c d, nonempty := true, phase := .opened } :=
    exec_frmData_of_opened (s := { s with tx := tx, crc := c, nonempty := n, phase := .opened }) he rfl d
  have hend (tx : List TxEvent) (c : Byte) :
      exec .frmEnd { s with tx := tx, crc := c, nonempty := true, phase := .opened } =
        .next { s with tx := tx ++ [.txByte c, .txEnd], crc := c, nonempty := true, phase := .idle } :=
    exec_frmEnd_of_nonempty (s := { s with tx := tx, crc := c, nonempty := true, phase := .opened }) he rfl rfl
  rw [execAll_cons_of_next (exec_frmStart_of_idle he hp _ _), execAll_cons_of_next (hdata _ _ _ _), hfirst,
    execAll_cons_of_next (hdata _ _ _ _), hsecond, execAll_cons_of_next (hend _ _), execAll_nil, ← hp]
  simp

/-- Settles O33: the two effects in an open frame, the fault of every command that is legal there only, the frozen
block, and the rule's example frame. -/
theorem frmEndRule : Obligations.FrmEndRule := by
  unfold Obligations.FrmEndRule
  exact ⟨rfl, decodeWord_packWord 6, fun _ => exec_frmEnd_of_nonempty, fun _ => exec_frmEnd_of_empty,
    fun _ => exec_insideFrame_of_idle (.inl rfl), fun _ => exec_frmEnd_of_err, fun _ => execAll_frm_example⟩

end Sys2Proof.Machine
end

section
/-! PROOFS about the phase transitions (41_frame.md R97). The row for `err` 1 speaks of every instruction: a
transaction and a frame row are runs of commands, none of which has an effect then. -/

namespace Sys2Proof.Machine

/-- A transaction none of whose commands has an effect has none. -/
theorem runAll_transaction_fixed {first last : State → State} {body : Byte → State → State} {s : State}
    (hfirst : first s = s) (hbody : ∀ b, body b s = s) (hlast : last s = s) (bs : List Byte) :
    runAll (first :: (bs.map body ++ [last])) s = s := by
  refine runAll_fixed fun f hf => ?_
  simp only [List.mem_cons, List.mem_append, List.mem_map, List.not_mem_nil, or_false] at hf
  obtain rfl | ⟨b, -, rfl⟩ | rfl := hf
  · exact hfirst
  · exact hbody b
  · exact hlast

theorem doChecksum_of_err {s : State} (he : s.err = true) (bs : List Byte) : doChecksum bs s = s :=
  runAll_transaction_fixed (whenLegal_of_err he) (fun _ => whenLegal_of_err he) (whenLegal_of_err he) bs

theorem doVerify_of_err {s : State} (he : s.err = true) (bs : List Byte) (c : Byte) : doVerify bs c s = s :=
  runAll_transaction_fixed (whenLegal_of_err he) (fun _ => whenLegal_of_err he) (whenLegal_of_err he) bs

theorem doBuildWrite_of_err {s : State} (he : s.err = true) (hi lo : Byte) (payload : List Byte) :
    doBuildWrite hi lo payload s = s :=
  runAll_transaction_fixed (whenLegal_of_err he) (fun _ => whenLegal_of_err he) (whenLegal_of_err he) payload

/-- While `err` is 1 no instruction has an effect (60_exceptions.md R135). The last case is BUILD_WRITE and the frame
rows, each of which is one. -/
theorem exec_of_err {s : State} (he : s.err = true) (i : Instr) : exec i s = .next s := by
  cases i with
  | crcInit | crcUpdate | crcRead | crcCheck => exact exec_crcCommand_of_err rfl he
  | frmStart hi lo => exact exec_frmStart_of_err he hi lo
  | frmData d => exact exec_frmData_of_err he d
  | frmEnd => exact exec_frmEnd_of_err he
  | reserved7 => exact exec_reserved7_of_err he
  | checksum bs => exact congrArg Host.Outcome.next (doChecksum_of_err he bs)
  | verify bs c => exact congrArg Host.Outcome.next (doVerify_of_err he bs c)
  | _ => exact congrArg Host.Outcome.next (doBuildWrite_of_err he _ _ _)

/-- A CRC command outside a frame stays there and takes no fault. -/
theorem exec_crcCommand_of_idle {i : Instr} (hi : isCrcCommand i = true) {s : State} (he : s.err = false)
    (hp : s.phase = .idle) : ∃ t, exec i s = .next t ∧ t.phase = .idle ∧ t.err = false :=
  match i, hi with
  | .crcInit, _ => ⟨_, exec_crcInit_of_idle he hp, hp, he⟩
  | .crcUpdate d, _ => ⟨_, exec_crcUpdate_of_idle he hp d, hp, he⟩
  | .crcRead, _ => ⟨_, exec_crcRead_of_idle he hp, hp, he⟩
  | .crcCheck c, _ => ⟨_, exec_crcCheck_of_idle he hp c, hp, he⟩

/-- FRM.END leaves the frame and takes no fault, whether or not it sends a checksum. -/
theorem exec_frmEnd_closes {s : State} (he : s.err = false) (hp : s.phase = .opened) :
    ∃ t, exec .frmEnd s = .next t ∧ t.phase = .idle ∧ t.err = false := by
  cases hn : s.nonempty with
  | true => exact ⟨_, exec_frmEnd_of_nonempty he hp hn, rfl, he⟩
  | false => exact ⟨_, exec_frmEnd_of_empty he hp hn, rfl, he⟩

/-- A step takes a reset off the port and resets the block. -/
theorem step_of_reset {s : State} {rest : List PortEvent} (hport : s.port = .reset :: rest) :
    step s = .next (resetEvent { s with port := rest }) := by
  simp only [step, takePort_cons hport]

/-- Settles O37: each row is the equation of its command in that phase; the row for `err` 1 is the frozen block, and
the last is the step of a reset. -/
theorem phaseTransitions : Obligations.PhaseTransitions := by
  unfold Obligations.PhaseTransitions
  exact ⟨fun _ _ he hp hi => exec_crcCommand_of_idle hi he hp,
    fun _ hi lo he hp => ⟨_, exec_frmStart_of_idle he hp hi lo, rfl, he⟩,
    fun _ _ he hp hi => ⟨_, exec_insideFrame_of_idle hi he hp, hp, rfl, rfl⟩,
    fun _ d he hp => ⟨_, exec_frmData_of_opened he hp d, hp, he⟩,
    fun _ => exec_frmEnd_closes,
    fun _ _ he hp hi => ⟨_, exec_outsideFrame_of_opened hi he hp, hp, rfl, rfl⟩,
    fun _ he => ⟨_, exec_reserved7_of_live he, rfl, rfl, rfl⟩,
    fun _ i he => exec_of_err he i,
    fun _ _ hport => ⟨_, step_of_reset hport, rfl, rfl⟩⟩

end Sys2Proof.Machine
end

section
/-! PROOFS about the frame macros with a payload of two bytes (42_commands.md R109, R112, R113). Each is the
BUILD_WRITE of its address and payload, whose effect at a transaction boundary is proved once, for every payload. -/

namespace Sys2Proof.Machine

/-- At a boundary BUILD_WRITE sends the bytes of `build_write` and `TxEnd` and leaves the checksum in the register
(41_frame.md R99, R100). -/
theorem doBuildWrite_of_boundary {s : State} (hs : Boundary s) (hi lo : Byte) (payload : List Byte) :
    doBuildWrite hi lo payload s = { s with
      tx := s.tx ++ (buildWrite hi lo payload).map .txByte ++ [.txEnd],
      crc := checksum payload, nonempty := !payload.isEmpty, phase := .idle } := by
  obtain ⟨he, hp⟩ := hs
  have hstart : doFrmStart hi lo s = { s with
      tx := s.tx ++ [.txByte hi, .txByte lo], crc := Config.init, nonempty := false, phase := .opened } :=
    Host.Outcome.next.inj (exec_frmStart_of_idle he hp hi lo)
  have hend {t t' : State} (h : exec .frmEnd t = .next t') : doFrmEnd t = t' := Host.Outcome.next.inj h
  rw [doBuildWrite, runAll_cons, hstart, runAll_append, runAll_frmData (by exact he) rfl, runAll_cons, runAll_nil,
    checksum_eq_crcMsg, crcMsg_eq_crcFrom]
  cases payload with
  | nil =>
    rw [hend (exec_frmEnd_of_empty (by exact he) rfl rfl), buildWrite_nil]
    simp
  | cons p ps =>
    rw [hend (exec_frmEnd_of_nonempty (by exact he) rfl rfl), buildWrite_cons, checksum_eq_crcMsg, crcMsg_eq_crcFrom]
    simp

/-- An instruction that is encoded, expanded and run as the BUILD_WRITE of two payload bytes sends their frame. -/
theorem sendsWordFrame_of_buildWrite {i : Instr} {hi lo p q : Byte}
    (hencode : encode i = .frame (buildWrite hi lo [p, q]))
    (hwords : commandWords i = frameWords (hi, lo) [p, q])
    (hexec : ∀ s, exec i s = .next (doBuildWrite hi lo [p, q] s)) :
    SendsWordFrame i hi lo p q (checksum [p, q]) := by
  refine ⟨hencode, hwords, fun s hs => ?_⟩
  rw [hexec, doBuildWrite_of_boundary hs, buildWrite_cons]
  simp

theorem checksum_pair {p q c d : Byte} (hp : crcByte Config.init p = c) (hq : crcByte c q = d) :
    checksum [p, q] = d := by
  rw [checksum_eq_crcMsg, crcMsg_eq_crcFrom, crcFrom_cons, crcFrom_cons, crcFrom_nil, hp, hq]

/-- The frame of a 16-bit operand, from its two bytes and the register after each. -/
theorem buildWrite_wordPayload {v : Word16} {p q c d : Byte} (hv : wordPayload v = [p, q])
    (hp : crcByte Config.init p = c) (hq : crcByte c q = d) (hi lo : Byte) :
    buildWrite hi lo (wordPayload v) = [hi, lo, p, q, d] := by
  rw [hv, buildWrite_cons, checksum_pair hp hq]
  rfl

theorem encode_writeMeasInterval {v : Word16} {p q c d : Byte} (hv : wordPayload v = [p, q])
    (hp : crcByte Config.init p = c) (hq : crcByte c q = d) :
    encode (.writeMeasInterval v) = .frame [0x46, 0x00, p, q, d] :=
  congrArg Input.frame (buildWrite_wordPayload hv hp hq 0x46 0x00)

theorem encode_triggerContMeas {v : Word16} {p q c d : Byte} (hv : wordPayload v = [p, q])
    (hp : crcByte Config.init p = c) (hq : crcByte c q = d) :
    encode (.triggerContMeas v) = .frame [0x00, 0x10, p, q, d] :=
  congrArg Input.frame (buildWrite_wordPayload hv hp hq 0x00 0x10)

theorem startMeasurementPm_sendsWordFrame : SendsWordFrame .startMeasurementPm 0x00 0x10 0x03 0x00 0xAC := by
  have hsum : checksum [0x03, 0x00] = 0xAC :=
    checksum_pair (by decide : crcByte Config.init 0x03 = 0xFF) (by decide)
  exact hsum ▸ sendsWordFrame_of_buildWrite rfl rfl fun _ => rfl

/-- R112: the payload is the operand, high byte first (20_memory.md R33). -/
theorem writeMeasInterval_sendsWordFrame (v : Word16) :
    SendsWordFrame (.writeMeasInterval v) 0x46 0x00 (hiByte v) (loByte v) (checksum [hiByte v, loByte v]) :=
  sendsWordFrame_of_buildWrite rfl rfl fun _ => rfl

/-- R113: likewise, at the address START_MEASUREMENT_PM has. -/
theorem triggerContMeas_sendsWordFrame (p : Word16) :
    SendsWordFrame (.triggerContMeas p) 0x00 0x10 (hiByte p) (loByte p) (checksum [hiByte p, loByte p]) :=
  sendsWordFrame_of_buildWrite rfl rfl fun _ => rfl

/-- Settles O51: the three macros as the BUILD_WRITE of their two payload bytes. An example is its operand's two bytes
with the register after each of them; 0x0300 splits into the payload of START_MEASUREMENT_PM. -/
theorem wordFrameRows : Obligations.WordFrameRows := by
  unfold Obligations.WordFrameRows
  have hzero : crcByte Config.init 0x00 = 0xAC := by decide
  have hthree : crcByte Config.init 0x03 = 0xFF := by decide
  have hones : crcByte Config.init 0xFF = 0x00 := by decide
  exact ⟨startMeasurementPm_sendsWordFrame, writeMeasInterval_sendsWordFrame, triggerContMeas_sendsWordFrame,
    encode_writeMeasInterval rfl hzero (by decide), encode_writeMeasInterval rfl hzero (by decide),
    encode_writeMeasInterval rfl hzero (by decide), encode_writeMeasInterval rfl hzero (by decide),
    encode_writeMeasInterval rfl hones (by decide), encode_triggerContMeas rfl hzero (by decide),
    encode_triggerContMeas rfl hthree (by decide), rfl, hthree, by decide,
    rfl, fun _ => rfl, fun _ => rfl⟩

end Sys2Proof.Machine
end

section
/-! PROOFS about the way out of a fault (60_exceptions.md R135, R136): while `err` is 1 a step at most takes its input
off the port, whatever the input is, so only a reset changes `err` and `err_code`. -/

namespace Sys2Proof.Machine

theorem step_of_empty_port {s : State} (hport : s.port = []) : step s = .next s := by
  simp only [step, takePort_nil hport]

/-- A step takes an input that is no instruction off the port and rejects it. -/
theorem step_of_decode_error {s : State} {x : Input} {rest : List PortEvent} {e : DecodeError}
    (hport : s.port = .issue x :: rest) (hdec : decode x = .error e) :
    step s = rejectInput e { s with port := rest } := by
  simp only [step, takePort_cons hport, hdec]

theorem rejectInput_of_err {s : State} (he : s.err = true) (e : DecodeError) : rejectInput e s = .next s :=
  if_pos he

/-- While `err` is 1 an input is taken off the port and has no effect, be it an instruction or not. -/
theorem step_issue_of_err {s : State} {x : Input} {rest : List PortEvent} (he : s.err = true)
    (hport : s.port = .issue x :: rest) : step s = .next { s with port := rest } := by
  cases hdec : decode x with
  | ok i => rw [step_of_decode_ok hport hdec, exec_of_err (by exact he)]
  | error e => rw [step_of_decode_error hport hdec, rejectInput_of_err (by exact he)]

/-- Settles O39, by what stands at the head of the port: nothing, a reset, or an input. -/
theorem onlyResetClearsError : Obligations.OnlyResetClearsError := by
  unfold Obligations.OnlyResetClearsError
  intro s t he hstep
  cases hport : s.port with
  | nil =>
    obtain rfl : s = t := Host.Outcome.next.inj ((step_of_empty_port hport).symm.trans hstep)
    exact .inl ⟨he, rfl⟩
  | cons event rest =>
    cases event with
    | reset =>
      obtain rfl := Host.Outcome.next.inj ((step_of_reset hport).symm.trans hstep)
      exact .inr ⟨rfl, rfl, rest, rfl⟩
    | issue x =>
      obtain rfl := Host.Outcome.next.inj ((step_issue_of_err he hport).symm.trans hstep)
      exact .inl ⟨he, rfl⟩

end Sys2Proof.Machine
end

section
/-! PROOFS about the checks of a command word (60_exceptions.md R129, R133): the legal cells of the table are the moves
of the phase, and a command word that makes no move takes a fault. -/

namespace Sys2Proof.Machine

/-- The legal cells of the table of R129, each with the phase it leads to (41_frame.md R97). -/
inductive LegalMove : Phase → Instr → Phase → Prop where
  | crc {c : Instr} : isCrcCommand c = true → LegalMove .idle c .idle
  | frmStart (hi lo : Byte) : LegalMove .idle (.frmStart hi lo) .opened
  | frmData (d : Byte) : LegalMove .opened (.frmData d) .opened
  | frmEnd : LegalMove .opened .frmEnd .idle

theorem legalMove_of_outsideFrame {i : Instr} (hi : isCrcCommand i = true ∨ ∃ hi lo, i = .frmStart hi lo) :
    ∃ q, LegalMove .idle i q := by
  obtain hcrc | ⟨hi, lo, rfl⟩ := hi
  · exact ⟨_, .crc hcrc⟩
  · exact ⟨_, .frmStart hi lo⟩

theorem legalMove_of_insideFrame {i : Instr} (hi : i = .frmEnd ∨ ∃ d, i = .frmData d) :
    ∃ q, LegalMove .opened i q := by
  obtain rfl | ⟨d, rfl⟩ := hi
  · exact ⟨_, .frmEnd⟩
  · exact ⟨_, .frmData d⟩

theorem LegalMove.unique {p q q' : Phase} {i : Instr} (h : LegalMove p i q) (h' : LegalMove p i q') : q = q' := by
  cases h with
  | crc hcrc =>
    cases h' with
    | crc => rfl
    | frmStart => cases hcrc
  | frmStart =>
    cases h' with
    | crc hcrc => cases hcrc
    | frmStart => rfl
  | frmData => cases h'; rfl
  | frmEnd => cases h'; rfl

/-- A CRC command outside a frame changes neither the phase nor `err` and `err_code` nor the port. -/
theorem exec_crcCommand_of_idle_keeps {i : Instr} (hi : isCrcCommand i = true) {s : State} (he : s.err = false)
    (hp : s.phase = .idle) :
    ∃ t, exec i s = .next t ∧ t.phase = s.phase ∧ t.err = s.err ∧ t.errCode = s.errCode ∧ t.port = s.port :=
  match i, hi with
  | .crcInit, _ => ⟨_, exec_crcInit_of_idle he hp, rfl, rfl, rfl, rfl⟩
  | .crcUpdate d, _ => ⟨_, exec_crcUpdate_of_idle he hp d, rfl, rfl, rfl, rfl⟩
  | .crcRead, _ => ⟨_, exec_crcRead_of_idle he hp, rfl, rfl, rfl, rfl⟩
  | .crcCheck c, _ => ⟨_, exec_crcCheck_of_idle he hp c, rfl, rfl, rfl, rfl⟩

/-- FRM.END in an open frame closes it and changes neither `err` and `err_code` nor the port. -/
theorem exec_frmEnd_of_opened_keeps {s : State} (he : s.err = false) (hp : s.phase = .opened) :
    ∃ t, exec .frmEnd s = .next t ∧ t.phase = .idle ∧ t.err = s.err ∧ t.errCode = s.errCode ∧ t.port = s.port := by
  cases hn : s.nonempty with
  | true => exact ⟨_, exec_frmEnd_of_nonempty he hp hn, rfl, rfl, rfl, rfl⟩
  | false => exact ⟨_, exec_frmEnd_of_empty he hp hn, rfl, rfl, rfl, rfl⟩

/-- A legal command makes its move of the phase and takes no fault. -/
theorem exec_of_legalMove {i : Instr} {s : State} {q : Phase} (he : s.err = false) (hmove : LegalMove s.phase i q) :
    ∃ t, exec i s = .next t ∧ t.phase = q ∧ t.err = false ∧ t.errCode = s.errCode ∧ t.port = s.port := by
  generalize hp : s.phase = p at hmove
  cases hmove with
  | crc hcrc => simpa only [he, hp] using exec_crcCommand_of_idle_keeps hcrc he hp
  | frmStart hi lo => exact ⟨_, exec_frmStart_of_idle he hp hi lo, rfl, he, rfl, rfl⟩
  | frmData d => exact ⟨_, exec_frmData_of_opened he hp d, hp, he, rfl, rfl⟩
  | frmEnd => simpa only [he] using exec_frmEnd_of_opened_keeps he hp

/-- The rows of the table of R129: a command word is legal outside a frame, legal in an open frame, or reserved. -/
theorem commandWord_cases {i : Instr} (hword : isCommandWord i = true) :
    (isCrcCommand i = true ∨ ∃ hi lo, i = .frmStart hi lo) ∨ (i = .frmEnd ∨ ∃ d, i = .frmData d) ∨
      i = .reserved7 := by
  cases i with
  | crcInit | crcUpdate | crcRead | crcCheck => exact .inl (.inl rfl)
  | frmStart hi lo => exact .inl (.inr ⟨hi, lo, rfl⟩)
  | frmData d => exact .inr (.inl (.inr ⟨d, rfl⟩))
  | frmEnd => exact .inr (.inl (.inl rfl))
  | reserved7 => exact .inr (.inr rfl)
  | _ => cases hword

/-- A command word that makes no move takes a fault and does nothing else (R131, R134). -/
theorem exec_of_not_legalMove {i : Instr} {s : State} (hword : isCommandWord i = true) (he : s.err = false)
    (hno : ¬ ∃ q, LegalMove s.phase i q) : ∃ k, exec i s = .next (faulted k s) := by
  obtain houtside | hinside | rfl := commandWord_cases hword
  · cases hp : s.phase with
    | idle => exact absurd (hp ▸ legalMove_of_outsideFrame houtside) hno
    | opened => exact ⟨_, exec_outsideFrame_of_opened houtside he hp⟩
  · cases hp : s.phase with
    | idle => exact ⟨_, exec_insideFrame_of_idle hinside he hp⟩
    | opened => exact absurd (hp ▸ legalMove_of_insideFrame hinside) hno
  · exact ⟨_, exec_reserved7_of_live he⟩

theorem decodeWord_of_op_seven {w : CmdWord} (hop : fieldOp w = 7) : decodeWord w = .reserved7 := by
  rw [decodeWord_eq_commandOf, hop]
  rfl

theorem decodeWord_insideFrame {w : CmdWord} (hop : fieldOp w = 5 ∨ fieldOp w = 6) :
    decodeWord w = .frmEnd ∨ ∃ d, decodeWord w = .frmData d := by
  rw [decodeWord_eq_commandOf]
  obtain hop | hop := hop
  · exact .inr ⟨fieldB w, by rw [hop]; rfl⟩
  · exact .inl (by rw [hop]; rfl)

theorem op_outsideFrame_cases : ∀ op : BitVec 3, op ≠ 7 → ¬ (op = 5 ∨ op = 6) →
    (op = 0 ∨ op = 1 ∨ op = 2 ∨ op = 3) ∨ op = 4 := by
  decide

theorem decodeWord_outsideFrame {w : CmdWord} (hdefined : fieldOp w ≠ 7) (hop : ¬ (fieldOp w = 5 ∨ fieldOp w = 6)) :
    isCrcCommand (decodeWord w) = true ∨ ∃ hi lo, decodeWord w = .frmStart hi lo := by
  rw [decodeWord_eq_commandOf]
  obtain hcrc | hstart := op_outsideFrame_cases _ hdefined hop
  · obtain h | h | h | h := hcrc <;> exact .inl (by rw [h]; rfl)
  · exact .inr ⟨fieldA w, fieldB w, by rw [hstart]; rfl⟩

/-- A defined command word in the wrong phase takes SEQ_ERROR. -/
theorem exec_decodeWord_of_wrongPhase {w : CmdWord} {s : State} (he : s.err = false) (hdefined : fieldOp w ≠ 7)
    (hphase : ¬ (s.phase = .opened ↔ (fieldOp w = 5 ∨ fieldOp w = 6))) :
    exec (decodeWord w) s = .next (faulted .seqError s) := by
  cases hp : s.phase with
  | idle =>
    have hop : fieldOp w = 5 ∨ fieldOp w = 6 := by simpa [hp, -not_or] using hphase
    exact exec_insideFrame_of_idle (decodeWord_insideFrame hop) he hp
  | opened =>
    have hop : ¬ (fieldOp w = 5 ∨ fieldOp w = 6) := by simpa [hp, -not_or] using hphase
    exact exec_outsideFrame_of_opened (decodeWord_outsideFrame hdefined hop) he hp

/-- A defined command word in the right phase makes a move. -/
theorem legalMove_decodeWord {w : CmdWord} {p : Phase} (hdefined : fieldOp w ≠ 7)
    (hphase : p = .opened ↔ (fieldOp w = 5 ∨ fieldOp w = 6)) : ∃ q, LegalMove p (decodeWord w) q := by
  cases p with
  | idle => exact legalMove_of_outsideFrame (decodeWord_outsideFrame hdefined fun hop => nomatch hphase.mpr hop)
  | opened => exact legalMove_of_insideFrame (decodeWord_insideFrame (hphase.mp rfl))

/-- Settles O26: the step runs the decoded word, and the clauses are the checks of that word in their order. -/
theorem checksInOrder : Obligations.ChecksInOrder := by
  unfold Obligations.ChecksInOrder
  intro s w rest hport
  have hstep : step s = exec (decodeWord w) { s with port := rest } := step_of_decode_ok hport rfl
  refine ⟨fun he => step_issue_of_err he hport, fun he hop => ?_, fun he hdefined hphase => ?_,
    fun he hdefined hphase => ?_⟩ <;> rw [hstep]
  · rw [decodeWord_of_op_seven hop]
    exact exec_reserved7_of_live he
  · exact exec_decodeWord_of_wrongPhase he hdefined hphase
  · obtain ⟨q, hmove⟩ := legalMove_decodeWord hdefined hphase
    obtain ⟨t, hexec, -, hlive, hcode, hrest⟩ := exec_of_legalMove (s := { s with port := rest }) he hmove
    exact ⟨t, hexec, hlive, hcode, hrest⟩

end Sys2Proof.Machine
end

section
/-! PROOFS about the language of the legal command sequences (60_exceptions.md R129): read from either phase, the
language takes one legal move of the phase per command, and so does the block until its first fault. -/

namespace Sys2Proof.Machine

/-- What completes a word of the language from a phase: a word, or in an open frame the rest of the frame and a word. -/
def LegalFrom : Phase → List Instr → Prop
  | .idle, cmds => LegalSequence cmds
  | .opened, cmds =>
    ∃ (payload : List Byte) (rest : List Instr), cmds = payload.map .frmData ++ .frmEnd :: rest ∧ LegalSequence rest

theorem legalFrom_cons {p : Phase} {i : Instr} {rest : List Instr} :
    LegalFrom p (i :: rest) ↔ ∃ q, LegalMove p i q ∧ LegalFrom q rest := by
  constructor
  · intro h
    cases p with
    | idle =>
      cases h with
      | crc _ _ hcrc hrest => exact ⟨_, .crc hcrc, hrest⟩
      | frame hi lo payload rest hrest => exact ⟨_, .frmStart hi lo, payload, rest, rfl, hrest⟩
    | opened =>
      obtain ⟨payload, rest', heq, hrest⟩ := h
      cases payload with
      | nil => cases heq; exact ⟨_, .frmEnd, hrest⟩
      | cons d payload => cases heq; exact ⟨_, .frmData d, payload, rest', rfl, hrest⟩
  · rintro ⟨q, hmove, hrest⟩
    cases hmove with
    | crc hcrc => exact .crc _ _ hcrc hrest
    | frmStart hi lo =>
      obtain ⟨payload, rest', rfl, hrest⟩ := hrest
      exact .frame hi lo payload rest' hrest
    | frmData d =>
      obtain ⟨payload, rest', rfl, hrest⟩ := hrest
      exact ⟨d :: payload, rest', rfl, hrest⟩
    | frmEnd => exact ⟨[], rest, rfl, hrest⟩

theorem legalFrom_cons_of_legalMove {p q : Phase} {i : Instr} (hmove : LegalMove p i q) (rest : List Instr) :
    LegalFrom p (i :: rest) ↔ LegalFrom q rest := by
  rw [legalFrom_cons]
  exact ⟨fun ⟨_, hmove', hrest⟩ => hmove.unique hmove' ▸ hrest, fun hrest => ⟨q, hmove, hrest⟩⟩

theorem not_legalFrom_cons {p : Phase} {i : Instr} (hno : ¬ ∃ q, LegalMove p i q) (rest : List Instr) :
    ¬ LegalFrom p (i :: rest) := fun h =>
  have ⟨q, hmove, _⟩ := legalFrom_cons.mp h
  hno ⟨q, hmove⟩

/-- Nothing more is needed exactly outside a frame. -/
theorem legalFrom_nil {p : Phase} : LegalFrom p [] ↔ p = .idle := by
  cases p with
  | idle => exact ⟨fun _ => rfl, fun _ => .nil⟩
  | opened => simp [LegalFrom]

/-- From either phase a word can be completed; an open frame by FRM.END. -/
theorem exists_legalFrom (p : Phase) : ∃ tail, LegalFrom p tail :=
  match p with
  | .idle => ⟨[], .nil⟩
  | .opened => ⟨[.frmEnd], [], [], rfl, .nil⟩

theorem execAll_of_err {s : State} (he : s.err = true) (cmds : List Instr) : execAll cmds s = .next s := by
  induction cmds with
  | nil => rfl
  | cons i rest ih => rw [execAll_cons_of_next (exec_of_err he i), ih]

/-- Command words, from any state with `err` 0: they run without a fault exactly when they can be completed, and end at
a boundary exactly when they are complete. -/
theorem execAll_iff_legalFrom {cmds : List Instr} (hwords : ∀ i ∈ cmds, isCommandWord i = true) {s : State}
    (he : s.err = false) :
    ∃ t, execAll cmds s = .next t ∧ (t.err = false ↔ ∃ tail, LegalFrom s.phase (cmds ++ tail)) ∧
      (Boundary t ↔ LegalFrom s.phase cmds) := by
  induction cmds generalizing s with
  | nil =>
    refine ⟨s, execAll_nil s, iff_of_true he (exists_legalFrom s.phase), ?_⟩
    rw [legalFrom_nil, Boundary, and_iff_right he]
  | cons i rest ih =>
    obtain ⟨hword, hrest⟩ := List.forall_mem_cons.mp hwords
    by_cases hmove : ∃ q, LegalMove s.phase i q
    · obtain ⟨q, hmove⟩ := hmove
      obtain ⟨u, hexec, rfl, hlive, -, -⟩ := exec_of_legalMove he hmove
      simp only [execAll_cons_of_next hexec, List.cons_append, legalFrom_cons_of_legalMove hmove]
      exact ih hrest hlive
    · obtain ⟨k, hexec⟩ := exec_of_not_legalMove hword he hmove
      refine ⟨faulted k s, ?_, iff_of_false Bool.noConfusion ?_, iff_of_false (fun hb => Bool.noConfusion hb.1) ?_⟩
      · rw [execAll_cons_of_next hexec, execAll_of_err rfl]
      · exact fun ⟨tail, h⟩ => not_legalFrom_cons hmove (rest ++ tail) h
      · exact not_legalFrom_cons hmove rest

/-- A command that has a legal move takes no fault. -/
theorem exec_runs_of_legalMove {i : Instr} {s : State} (he : s.err = false) (hmove : ∃ q, LegalMove s.phase i q) :
    ∃ t, exec i s = .next t ∧ t.err = false := by
  obtain ⟨q, hmove⟩ := hmove
  obtain ⟨t, hexec, -, hlive, -, -⟩ := exec_of_legalMove he hmove
  exact ⟨t, hexec, hlive⟩

/-- Settles O36: the cells of the table by the moves and the faults of the two groups of commands; the language by
induction on the commands, read from the phase the block is in. -/
theorem legalSequencesAreTheLanguage : Obligations.LegalSequencesAreTheLanguage := by
  unfold Obligations.LegalSequencesAreTheLanguage
  refine ⟨fun _ _ he hp hi => exec_runs_of_legalMove he (hp ▸ legalMove_of_outsideFrame hi),
    fun _ _ he hp hi => exec_runs_of_legalMove he (hp ▸ legalMove_of_insideFrame hi),
    fun _ _ he hp hi => exec_outsideFrame_of_opened hi he hp, fun _ _ he hp hi => exec_insideFrame_of_idle hi he hp,
    fun _ => exec_reserved7_of_live, fun cmds s hwords ⟨he, hp⟩ => ?_⟩
  have hrun := execAll_iff_legalFrom hwords he
  rw [hp] at hrun
  exact hrun

end Sys2Proof.Machine
end

section
/-! PROOFS about reset and the frames a consumer reads (70_reset_and_hazards.md R145, R146). The mark a reset leaves at
the end of `tx` discards the run that is open there and changes no frame before it; what is sent after the last mark is
read whole. -/

namespace Sys2Proof.Machine

/-- Settles O22: the values of `State.reset` are R23's. -/
theorem resetRestoresEveryVariable : Obligations.ResetRestoresEveryVariable := by
  unfold Obligations.ResetRestoresEveryVariable
  exact fun _ _ hport => step_of_reset hport

theorem cutAt_nil (cuts : List Nat) (pos : Nat) : cutAt cuts pos [] = [] := ite_self []

theorem cutAt_append_self (cuts : List Nat) (pos : Nat) (run : List Byte) : cutAt (cuts ++ [pos]) pos run = [] := by
  simp [cutAt]

theorem cutAt_append_of_ne {cuts : List Nat} {pos m : Nat} (h : pos ≠ m) (run : List Byte) :
    cutAt (cuts ++ [m]) pos run = cutAt cuts pos run := by
  simp [cutAt, h]

/-- A mark at the end of a piece of `tx` discards the run left there and nothing else (R146). -/
theorem scanTx_mark_end (cuts : List Nat) (pos : Nat) (run : List Byte) (es : List TxEvent) :
    scanTx (cuts ++ [pos + es.length]) pos run es = ((scanTx cuts pos run es).1, []) := by
  induction es generalizing pos run with
  | nil => exact congrArg (Prod.mk []) (cutAt_append_self cuts pos run)
  | cons e rest ih =>
    have hcut : cutAt (cuts ++ [pos + 1 + rest.length]) pos run = cutAt cuts pos run :=
      cutAt_append_of_ne (by omega) run
    rw [List.length_cons, Nat.add_comm rest.length, ← Nat.add_assoc]
    cases e with
    | txByte b => rw [scanTx_byte, scanTx_byte, hcut, ih]
    | txEnd => rw [scanTx_end, scanTx_end, hcut, ih]

/-- Bytes sent after the last mark, and their `TxEnd`, are read as one frame. -/
theorem scanTx_bytes_end {cuts : List Nat} {pos : Nat} (hmarks : ∀ m ∈ cuts, m ≤ pos) {run : List Byte}
    (hrun : cutAt cuts pos run = run) (bytes : List Byte) :
    scanTx cuts pos run (bytes.map .txByte ++ [.txEnd]) = ([run ++ bytes], []) := by
  induction bytes generalizing pos run with
  | nil => simp [scanTx_end, scanTx_nil, cutAt_nil, hrun]
  | cons b rest ih =>
    have hpast : pos + 1 ∉ cuts := fun hmem => Nat.not_succ_le_self pos (hmarks _ hmem)
    rw [List.map_cons, List.cons_append, scanTx_byte, hrun,
      ih (fun m hm => Nat.le_succ_of_le (hmarks m hm)) (cutAt_of_not_mem hpast _), List.append_assoc,
      List.singleton_append]

theorem scanTx_resetEvent (s : State) : scanTx (resetEvent s).cuts 0 [] (resetEvent s).tx = (s.frames, []) := by
  have h := scanTx_mark_end s.cuts 0 [] s.tx
  rwa [Nat.zero_add] at h

theorem resetEvent_frames (s : State) : (resetEvent s).frames = s.frames := by
  rw [State.frames, scanTx_resetEvent]

theorem resetEvent_openRun (s : State) : (resetEvent s).openRun = [] := congrArg Prod.snd (scanTx_resetEvent s)

theorem resetEvent_boundary (s : State) : Boundary (resetEvent s) := ⟨rfl, rfl⟩

/-- A reset meets the invariant again, in whatever state it finds the block: of R24 only the marks must hold before. -/
theorem stateInv_resetEvent {s : State} (hmarks : ∀ m ∈ s.cuts, m ≤ s.tx.length) : StateInv (resetEvent s) where
  code := iff_of_true rfl rfl
  marks := by simpa [or_imp, forall_and] using hmarks
  closed _ _ := resetEvent_openRun s
  frame _ hopened := Phase.noConfusion hopened

/-- Under the invariant a BUILD_WRITE at a boundary adds its own frame and leaves no byte unclosed (41_frame.md
R100). -/
theorem exec_buildWrite_adds_frame {s : State} (hinv : StateInv s) (hs : Boundary s) (hi lo : Byte)
    (payload : List Byte) :
    ∃ t, exec (.buildWrite hi lo payload) s = .next t ∧
      t.frames = s.frames ++ [buildWrite hi lo payload] ∧ t.openRun = [] := by
  have hclosed : (scanTx s.cuts 0 [] s.tx).2 = [] := hinv.closed hs.1 hs.2
  have hframe := scanTx_bytes_end hinv.marks (cutAt_nil s.cuts s.tx.length) (buildWrite hi lo payload)
  have hscan : scanTx s.cuts 0 [] (s.tx ++ (buildWrite hi lo payload).map .txByte ++ [.txEnd]) =
      (s.frames ++ [buildWrite hi lo payload], []) := by
    rw [List.append_assoc, scanTx_append, hclosed, Nat.zero_add, hframe]
    rfl
  exact ⟨_, congrArg Host.Outcome.next (doBuildWrite_of_boundary hs hi lo payload), congrArg Prod.fst hscan,
    congrArg Prod.snd hscan⟩

/-- Settles O57: the reset marks the end of `tx`, which cuts the open run and no frame; the state it leaves meets the
invariant at a boundary, where a BUILD_WRITE adds its own frame. -/
theorem resetAbandonsOpenFrame : Obligations.ResetAbandonsOpenFrame := by
  unfold Obligations.ResetAbandonsOpenFrame
  intro s rest hinv hport
  refine ⟨_, step_of_reset hport, rfl, rfl, resetEvent_frames _, resetEvent_openRun _, fun hi lo payload => ?_⟩
  obtain ⟨u, hexec, hframes, -⟩ :=
    exec_buildWrite_adds_frame (stateInv_resetEvent (s := { s with port := rest }) hinv.marks)
      (resetEvent_boundary _) hi lo payload
  refine ⟨u, hexec, ?_⟩
  rw [hframes, resetEvent_frames]
  rfl

end Sys2Proof.Machine
end

section
/-! PROOFS about the algebra of the CRC (40_crc8.md section 4, R86 to R88): a round is a shift and an XOR that its
shifted-out bit decides. So it is linear over GF(2), and as bit 0 shows which bit was shifted out, it can be undone;
with it a byte and a whole message can. -/

namespace Sys2Proof.Machine

/-- What a round XORs in, by the bit it shifts out. -/
def polyIf (b : Bool) : Byte := if b then Config.poly else 0

theorem polyIf_xor (a b : Bool) : polyIf (a ^^ b) = polyIf a ^^^ polyIf b := by
  cases a <;> cases b <;> decide

theorem crcRound_eq_xor_polyIf (c : Byte) : crcRound c = c <<< 1 ^^^ polyIf (c.getLsbD 7) := by
  rw [crcRound, polyIf]
  split
  · rfl
  · exact BitVec.xor_zero.symm

theorem crcBit_eq_xor_polyIf (c : Byte) (x : Bool) : crcBit c x = c <<< 1 ^^^ polyIf (c.getLsbD 7 ^^ x) := by
  rw [crcBit, polyIf]
  split
  · rfl
  · exact BitVec.xor_zero.symm

theorem crcRound_xor (a b : Byte) : crcRound (a ^^^ b) = crcRound a ^^^ crcRound b := by
  rw [crcRound_eq_xor_polyIf, crcRound_eq_xor_polyIf, crcRound_eq_xor_polyIf, BitVec.shiftLeft_xor_distrib,
    BitVec.getLsbD_xor, polyIf_xor]
  ac_rfl

theorem crcRounds_xor (n : Nat) (a b : Byte) : crcRounds n (a ^^^ b) = crcRounds n a ^^^ crcRounds n b := by
  induction n generalizing a b with
  | zero => rfl
  | succ n ih => rw [crcRounds_succ, crcRounds_succ, crcRounds_succ, crcRound_xor, ih]

theorem crcByte_xor (a b d e : Byte) : crcByte (a ^^^ b) (d ^^^ e) = crcByte a d ^^^ crcByte b e := by
  have hswap : a ^^^ b ^^^ (d ^^^ e) = (a ^^^ d) ^^^ (b ^^^ e) := by ac_rfl
  rw [crcByte_eq_rounds, crcByte_eq_rounds, crcByte_eq_rounds, hswap, crcRounds_xor]

/-- The polynomial has the term 1, so a round shows in bit 0 what it shifted out of bit 7. -/
theorem crcRound_getLsbD_zero (c : Byte) : (crcRound c).getLsbD 0 = c.getLsbD 7 := by
  rw [crcRound_eq_xor_polyIf, BitVec.getLsbD_xor, BitVec.getLsbD_shiftLeft]
  cases c.getLsbD 7 <;> rfl

/-- A shift by one place loses bit 7 only. -/
theorem eq_of_shiftLeft_one_eq {a b : Byte} (h7 : a.getLsbD 7 = b.getLsbD 7) (h : a <<< 1 = b <<< 1) : a = b := by
  refine BitVec.eq_of_getLsbD_eq fun i hi => ?_
  obtain rfl | hlt : i = 7 ∨ i < 7 := by omega
  · exact h7
  · have hbit (c : Byte) : (c <<< 1).getLsbD (i + 1) = c.getLsbD i := by
      simp only [BitVec.getLsbD_shiftLeft, Nat.add_sub_cancel, show i + 1 < 8 by omega, show ¬ i + 1 < 1 by omega,
        decide_true, decide_false, Bool.not_false, Bool.true_and]
    rw [← hbit a, ← hbit b, h]

theorem crcRound_injective : Function.Injective crcRound := by
  intro a b h
  have h7 : a.getLsbD 7 = b.getLsbD 7 := by rw [← crcRound_getLsbD_zero, ← crcRound_getLsbD_zero, h]
  rw [crcRound_eq_xor_polyIf, crcRound_eq_xor_polyIf, h7, BitVec.xor_left_inj] at h
  exact eq_of_shiftLeft_one_eq h7 h

theorem crcRound_bijective : Function.Bijective crcRound := Finite.injective_iff_bijective.mp crcRound_injective

theorem crcRounds_bijective (n : Nat) : Function.Bijective (crcRounds n) := by
  induction n with
  | zero => exact Function.bijective_id
  | succ n ih => exact ih.comp crcRound_bijective

theorem xor_left_bijective (c : Byte) : Function.Bijective (c ^^^ ·) :=
  Function.Involutive.bijective fun d => by rw [← BitVec.xor_assoc, BitVec.xor_self, BitVec.zero_xor]

theorem crcByte_right_bijective (c : Byte) : Function.Bijective fun d => crcByte c d :=
  (crcRounds_bijective 8).comp (xor_left_bijective c)

theorem crcByte_comm (c d : Byte) : crcByte c d = crcByte d c := by
  rw [crcByte_eq_rounds, crcByte_eq_rounds, BitVec.xor_comm]

theorem crcByte_left_bijective (d : Byte) : Function.Bijective fun c => crcByte c d := by
  simpa only [crcByte_comm] using crcByte_right_bijective d

/-- A message is absorbed by a permutation of the register. -/
theorem crcFrom_injective (bs : List Byte) : Function.Injective fun c => crcFrom c bs := by
  induction bs with
  | nil => exact Function.injective_id
  | cons b bs ih => exact ih.comp (crcByte_left_bijective b).injective

/-- The register after a message, one byte and the rest of it. -/
theorem checksum_append_cons (before : List Byte) (x : Byte) (after : List Byte) :
    checksum (before ++ x :: after) = crcFrom (crcByte (crcMsg before) x) after := by
  rw [checksum_eq_crcMsg, crcMsg_eq_crcFrom, crcFrom_append, crcFrom_cons, crcMsg_eq_crcFrom]

theorem checksum_ne_of_one_byte (before after : List Byte) {x y : Byte} (h : x ≠ y) :
    checksum (before ++ x :: after) ≠ checksum (before ++ y :: after) := by
  rw [checksum_append_cons, checksum_append_cons]
  exact (crcFrom_injective after).ne ((crcByte_right_bijective _).injective.ne h)

/-- Settles O10: a round can be undone, since bit 0 shows what was shifted out; so can a byte and what follows it. -/
theorem oneByteChangeChangesChecksum : Obligations.OneByteChangeChangesChecksum := by
  unfold Obligations.OneByteChangeChangesChecksum
  exact ⟨crcRound_bijective, crcByte_left_bijective, crcByte_right_bijective,
    fun before after _ _ => checksum_ne_of_one_byte before after⟩

theorem crcMsg_append_byte (bs : List Byte) (c : Byte) : crcMsg (bs ++ [c]) = crcByte (crcMsg bs) c :=
  crcFrom_append _ _ _

/-- Absorbing a byte clears the register exactly when the register holds that byte. -/
theorem crcByte_eq_zero_iff (c d : Byte) : crcByte c d = 0x00 ↔ c = d := by
  rw [← crcByte_self d]
  exact (crcByte_left_bijective d).injective.eq_iff

theorem crcMsg_append_byte_eq_zero_iff (bs : List Byte) (c : Byte) : crcMsg (bs ++ [c]) = 0x00 ↔ checksum bs = c := by
  rw [crcMsg_append_byte, crcByte_eq_zero_iff, checksum_eq_crcMsg]

theorem checksum_append_checksum (bs : List Byte) : checksum (bs ++ [checksum bs]) = 0x00 := by
  rw [checksum_eq_crcMsg, crcMsg_append_byte_eq_zero_iff]

/-- Settles O8: absorbing a byte gives 0 exactly when it is the byte the register holds. -/
theorem checksumResidueIsZero : Obligations.ChecksumResidueIsZero := by
  unfold Obligations.ChecksumResidueIsZero
  exact ⟨checksum_append_checksum, crcMsg_append_byte_eq_zero_iff, crcByte_self⟩

/-- Settles O14: the frame's own checksum covers a payload that ends in its checksum. -/
theorem checksumSentAsPayloadEndsInZero : Obligations.ChecksumSentAsPayloadEndsInZero := by
  unfold Obligations.ChecksumSentAsPayloadEndsInZero
  intro hi lo payload _
  rw [buildWrite_of_payload hi lo (by simp), checksum_append_checksum]
  simp

end Sys2Proof.Machine
end

section
/-! PROOFS about the other forms of the CRC (40_crc8.md R70, R73, R74, R87): in nine bits or more, bit by bit, as the
remainder of a division by the polynomial, and by table. -/

namespace Sys2Proof.Machine

/-- In a wider word the bit that a byte loses in a shift is bit 8. -/
theorem setWidth_shiftLeft_one (c : Byte) (w : Nat) :
    (c <<< 1).setWidth w = c.setWidth w <<< 1 ^^^ (if c.getLsbD 7 then BitVec.ofNat w (2 ^ 8) else 0#w) := by
  refine BitVec.eq_of_getLsbD_eq fun i hi => ?_
  have hmask : (if c.getLsbD 7 then BitVec.ofNat w (2 ^ 8) else 0#w).getLsbD i = (c.getLsbD 7 && decide (8 = i)) := by
    cases c.getLsbD 7
    · exact BitVec.getLsbD_zero
    · rw [if_pos rfl, BitVec.getLsbD_ofNat, Nat.testBit_two_pow, decide_eq_true hi]
  rw [BitVec.getLsbD_xor, hmask]
  obtain hlt | rfl | hgt := lt_trichotomy i 8
  · simp only [BitVec.getLsbD_setWidth, BitVec.getLsbD_shiftLeft, hi, hlt, hlt.ne', show i - 1 < w by omega,
      decide_true, decide_false, Bool.true_and, Bool.and_false, Bool.xor_false]
  · simp [hi]
  · have hout : c.getLsbD (i - 1) = false := BitVec.getLsbD_of_ge _ _ (by omega)
    simp [hi, hgt.ne, hout]

/-- In a wider word a round is a shift, and the subtraction of the whole polynomial when a 1 left the byte. -/
theorem setWidth_crcRound (c : Byte) (w : Nat) : (crcRound c).setWidth w =
    c.setWidth w <<< 1 ^^^ (if c.getLsbD 7 then Config.poly9.setWidth w else 0#w) := by
  have hpoly : Config.poly9.setWidth w = BitVec.ofNat w (2 ^ 8) ^^^ Config.poly.setWidth w := by
    have h9 : Config.poly9.toNat = 2 ^ 8 ^^^ Config.poly.toNat := by decide
    rw [← BitVec.ofNat_toNat, h9, BitVec.ofNat_xor, BitVec.ofNat_toNat]
  rw [crcRound_eq_xor_polyIf, BitVec.setWidth_xor, setWidth_shiftLeft_one c w, hpoly, BitVec.xor_assoc]
  cases c.getLsbD 7
  · simp [polyIf]
  · rfl

/-- Settles O1: the round by definition, its nine-bit form, and closed examples. -/
theorem crcRoundShiftsAndReduces : Obligations.CrcRoundShiftsAndReduces := by
  unfold Obligations.CrcRoundShiftsAndReduces
  exact ⟨fun _ => rfl, fun c => setWidth_crcRound c 9, by decide⟩

/-- One round of a byte fed with another is one bit fed, the other's bit 7, and the rest of it moved up. -/
theorem crcRound_xor_eq_crcBit (c d : Byte) : crcRound (c ^^^ d) = crcBit c (d.getLsbD 7) ^^^ d <<< 1 := by
  rw [crcRound_eq_xor_polyIf, crcBit_eq_xor_polyIf, BitVec.shiftLeft_xor_distrib, BitVec.getLsbD_xor]
  ac_rfl

/-- Once `8 - n` bits of `d` are fed, the `n` rounds left feed the lower `n` bits, the highest first. -/
theorem crcRounds_eq_foldl_crcBit {n : Nat} (hn : n ≤ 8) (c d : Byte) : crcRounds n (c ^^^ d <<< (8 - n)) =
    (List.range n).reverse.foldl (fun t k => crcBit t (d.getLsbD k)) c := by
  induction n generalizing c with
  | zero => rw [crcRounds_zero, BitVec.shiftLeft_eq_zero (by decide), BitVec.xor_zero]; rfl
  | succ n ih =>
    have hbit : (d <<< (8 - (n + 1))).getLsbD 7 = d.getLsbD n := by
      have hindex : 7 - (8 - (n + 1)) = n := by omega
      have hshift : ¬ 7 < 8 - (n + 1) := by omega
      simp only [BitVec.getLsbD_shiftLeft, hindex, hshift, Nat.reduceLT, decide_true, decide_false, Bool.not_false,
        Bool.true_and]
    have hrest : d <<< (8 - (n + 1)) <<< 1 = d <<< (8 - n) := by
      rw [← BitVec.shiftLeft_add]
      congr 1
      omega
    rw [crcRounds_succ, crcRound_xor_eq_crcBit, hbit, hrest, ih (by omega), List.range_succ, List.reverse_concat,
      List.foldl_cons]

theorem crcByte_eq_crcByteSerial (c d : Byte) : crcByte c d = crcByteSerial c d := by
  have h := crcRounds_eq_foldl_crcBit (Nat.le_refl 8) c d
  rw [Nat.sub_self, BitVec.shiftLeft_zero] at h
  exact h

/-- Settles O5: a round feeds one bit; the nested form is the fold written out. -/
theorem crcBitSerialEqualsRounds : Obligations.CrcBitSerialEqualsRounds := by
  unfold Obligations.CrcBitSerialEqualsRounds
  exact fun c d => ⟨crcByte_eq_crcByteSerial c d, crcByte_eq_crcByteSerial c d⟩

/-- `gf2Reduce` of a byte times `x ^ n` is the byte after `n` rounds: each step of the division is a round. -/
theorem gf2Reduce_shiftLeft {n : Nat} (hn : n ≤ 8) (c : Byte) :
    gf2Reduce n (c.setWidth 16 <<< n) = (crcRounds n c).setWidth 16 := by
  induction n generalizing c with
  | zero => rw [gf2Reduce, crcRounds_zero, BitVec.shiftLeft_zero]
  | succ n ih =>
    have htop : (c.setWidth 16 <<< (n + 1)).getLsbD (8 + n) = c.getLsbD 7 := by
      have hindex : 8 + n - (n + 1) = 7 := by omega
      have hinside : 8 + n < 16 := by omega
      have hshift : ¬ 8 + n < n + 1 := by omega
      simp only [BitVec.getLsbD_shiftLeft, BitVec.getLsbD_setWidth, hindex, hinside, hshift, Nat.reduceLT, decide_true,
        decide_false, Bool.not_false, Bool.true_and]
    have hround : (if c.getLsbD 7 then c.setWidth 16 <<< (n + 1) ^^^ Config.poly9.setWidth 16 <<< n
        else c.setWidth 16 <<< (n + 1)) = (crcRound c).setWidth 16 <<< n := by
      rw [setWidth_crcRound c 16, BitVec.shiftLeft_xor_distrib, ← BitVec.shiftLeft_add, Nat.add_comm 1 n]
      cases c.getLsbD 7 <;> simp
    rw [gf2Reduce, htop, hround, ih (by omega), crcRounds_succ]

/-- Where no term of the dividend is left the division does nothing. -/
theorem gf2Reduce_of_small {m n : Nat} (hnm : n ≤ m) {v : BitVec 16} (hv : ∀ k, n ≤ k → v.getLsbD (8 + k) = false) :
    gf2Reduce m v = gf2Reduce n v := by
  induction m, hnm using Nat.le_induction with
  | base => rfl
  | succ m hnm ih => rw [gf2Reduce, hv m hnm, if_neg Bool.false_ne_true, ih]

/-- A byte times `x ^ n` modulo the polynomial is the byte after `n` rounds. -/
theorem gf2Mod_shiftLeft {n : Nat} (hn : n ≤ 8) (c : Byte) : gf2Mod (c.setWidth 16 <<< n) = crcRounds n c := by
  have hsmall (k : Nat) (hk : n ≤ k) : (c.setWidth 16 <<< n).getLsbD (8 + k) = false := by
    have hout : c.getLsbD (8 + k - n) = false := BitVec.getLsbD_of_ge _ _ (by omega)
    simp [BitVec.getLsbD_shiftLeft, hout]
  rw [gf2Mod, gf2Reduce_of_small hn hsmall, gf2Reduce_shiftLeft hn, BitVec.setWidth_setWidth_of_le _ (by decide),
    BitVec.setWidth_eq]

/-- Settles O9: linearity of the round carries over to the byte, and a round is a step of the division. -/
theorem crcIsLinear : Obligations.CrcIsLinear := by
  unfold Obligations.CrcIsLinear
  exact ⟨crcRound_xor, crcByte_xor, crcByte_self 0, fun c => (gf2Mod_shiftLeft (n := 1) (by decide) c).symm,
    fun c d => (gf2Mod_shiftLeft (n := 8) (by decide) (c ^^^ d)).symm⟩

/-- The table is the list of the bytes absorbed into 0 (R73). -/
theorem crcTable_eq_map_crcByte : crcTable = (List.range 256).map fun k => crcByte 0x00 (BitVec.ofNat 8 k) := by
  decide +kernel

theorem getElem?_crcTable (i : Byte) : crcTable[i.toNat]? = some (crcByte 0x00 i) := by
  rw [crcTable_eq_map_crcByte, List.getElem?_map, List.getElem?_range i.isLt, Option.map_some, BitVec.ofNat_toNat,
    BitVec.setWidth_eq]

theorem crcByte_eq_crcByteTable (c d : Byte) : crcByte c d = crcByteTable c d := by
  rw [crcByteTable, List.getD_eq_getElem?_getD, getElem?_crcTable, Option.getD_some, crcByte_eq_rounds,
    crcByte_eq_rounds]
  exact congrArg (crcRounds 8) BitVec.zero_xor.symm

/-- Settles O4: the entries by evaluation; a byte is absorbed into a register as their XOR is into 0. -/
theorem crcTableEqualsRounds : Obligations.CrcTableEqualsRounds := by
  unfold Obligations.CrcTableEqualsRounds
  exact ⟨by rw [crcTable_eq_map_crcByte, List.length_map, List.length_range], getElem?_crcTable,
    crcByte_eq_crcByteTable⟩

/-- Settles O7: each checksum from the register after each byte; the other readings by evaluation. -/
theorem checksumKnownValues : Obligations.ChecksumKnownValues := by
  unfold Obligations.ChecksumKnownValues
  have hzero : crcByte Config.init 0x00 = 0xAC := by decide
  have hBE : crcByte Config.init 0xBE = 0x0C := by decide
  have hthree : crcByte Config.init 0x03 = 0xFF := by decide
  exact ⟨checksum_pair hzero (by decide), checksum_pair hBE (by decide), checksum_pair hzero (by decide), rfl,
    checksum_pair hthree (by decide), by decide +kernel, by decide +kernel⟩

end Sys2Proof.Machine
end

section
/-! PROOFS about the frame decoder (30_encoding.md R58, 41_frame.md R91): bytes are too short for a frame, an address
alone, or an address with a body of a payload and one byte more, which has to be the payload's checksum. -/

namespace Sys2Proof.Machine

/-- What follows the two address bytes is read as a payload and its checksum. -/
theorem splitFrame_body (hi lo : Byte) {body : List Byte} (hlen : 2 ≤ body.length) :
    splitFrame (hi :: lo :: body) =
      if body.getLast? = some (checksum body.dropLast) then some ((hi, lo), body.dropLast) else none :=
  match body, hlen with
  | _ :: _ :: _, _ => rfl

theorem splitFrame_buildWrite (hi lo : Byte) (payload : List Byte) :
    splitFrame (buildWrite hi lo payload) = some ((hi, lo), payload) := by
  cases payload with
  | nil => rfl
  | cons p ps =>
    have hbody : splitFrame (hi :: lo :: ((p :: ps) ++ [checksum (p :: ps)])) = some ((hi, lo), p :: ps) := by
      rw [splitFrame_body hi lo (by simp), List.dropLast_concat, List.getLast?_concat, if_pos rfl]
    exact hbody

/-- A body of at least two bytes is a payload of at least one byte and its last byte. -/
theorem body_eq_payload_concat {body : List Byte} (hlen : 2 ≤ body.length) :
    ∃ payload c, body = payload ++ [c] ∧ 1 ≤ payload.length := by
  have hne : body ≠ [] := List.ne_nil_of_length_pos (by omega)
  exact ⟨body.dropLast, body.getLast hne, (List.dropLast_concat_getLast hne).symm, by rw [List.length_dropLast]; omega⟩

/-- The lengths a byte sequence can have: too short or of length 3, an address alone, or an address and a body. -/
theorem frame_shapes (frame : List Byte) :
    ((frame.length < 2 ∨ frame.length = 3) ∧ splitFrame frame = none) ∨ (∃ hi lo, frame = [hi, lo]) ∨
      ∃ hi lo body, frame = hi :: lo :: body ∧ 2 ≤ body.length :=
  match frame with
  | [] => .inl ⟨by decide, rfl⟩
  | [_] => .inl ⟨by simp, rfl⟩
  | [hi, lo] => .inr (.inl ⟨hi, lo, rfl⟩)
  | [_, _, _] => .inl ⟨by simp, rfl⟩
  | hi :: lo :: p :: c :: rest => .inr (.inr ⟨hi, lo, p :: c :: rest, rfl, by simp⟩)

theorem eq_buildWrite_of_splitFrame {frame payload : List Byte} {hi lo : Byte}
    (h : splitFrame frame = some ((hi, lo), payload)) : frame = buildWrite hi lo payload := by
  obtain ⟨-, hnone⟩ | ⟨hi', lo', rfl⟩ | ⟨hi', lo', body, rfl, hlen⟩ := frame_shapes frame
  · cases hnone.symm.trans h
  · cases h; rfl
  · obtain ⟨payload', c, rfl, hpayload⟩ := body_eq_payload_concat hlen
    rw [splitFrame_body hi' lo' hlen, List.dropLast_concat, List.getLast?_concat] at h
    split at h
    next hsum =>
      cases hsum; cases h
      rw [buildWrite_of_payload hi lo hpayload]
      rfl
    next => cases h

theorem splitFrame_isSome_iff (frame : List Byte) :
    (splitFrame frame).isSome = true ↔
      frame.length = 2 ∨ (4 ≤ frame.length ∧ frame.getLast? = some (checksum (frame.drop 2).dropLast)) := by
  obtain ⟨hlen, hnone⟩ | ⟨hi, lo, rfl⟩ | ⟨hi, lo, body, rfl, hlen⟩ := frame_shapes frame
  · rw [hnone]
    exact iff_of_false Bool.noConfusion (by omega)
  · exact iff_of_true rfl (.inl rfl)
  · have hlast : (hi :: lo :: body).getLast? = body.getLast? := by
      rw [List.getLast?_cons_of_ne_nil (List.cons_ne_nil _ _),
        List.getLast?_cons_of_ne_nil (List.ne_nil_of_length_pos (by omega))]
    rw [splitFrame_body hi lo hlen, hlast, List.drop_succ_cons, List.drop_succ_cons, List.drop_zero]
    split
    next hsum => exact iff_of_true rfl (.inr ⟨by simpa using hlen, hsum⟩)
    next hsum =>
      refine iff_of_false Bool.noConfusion ?_
      rintro (htwo | ⟨-, hsum'⟩)
      · simp only [List.length_cons] at htwo; omega
      · exact hsum hsum'

/-- Settles O13: the decoder undoes `build_write`, and what it accepts is one, by the shapes of a byte sequence. -/
theorem frameDecoderInvertsBuildWrite : Obligations.FrameDecoderInvertsBuildWrite := by
  unfold Obligations.FrameDecoderInvertsBuildWrite
  exact ⟨fun _ hi lo payload => ⟨eq_buildWrite_of_splitFrame, fun h => h ▸ splitFrame_buildWrite hi lo payload⟩,
    splitFrame_isSome_iff⟩

theorem length_buildWrite (hi lo : Byte) (payload : List Byte) :
    (buildWrite hi lo payload).length = if payload.length = 0 then 2 else payload.length + 3 := by
  cases payload with
  | nil => rfl
  | cons p ps => simp [buildWrite_cons]

/-- Settles O12: the length, which is 2 or at least 4. -/
theorem buildWriteLength : Obligations.BuildWriteLength := by
  unfold Obligations.BuildWriteLength
  intro hi lo payload
  rw [length_buildWrite]
  split <;> omega

end Sys2Proof.Machine
end

section
/-! PROOFS about the instructions as sequences of commands (30_encoding.md R53, R61, R62): an instruction is a command
word, CHECKSUM, VERIFY, or one frame, and the command words of each decode to the commands it stands for. -/

namespace Sys2Proof.Machine

/-- The four kinds of instruction. -/
theorem instr_cases (i : Instr) :
    isCommandWord i = true ∨ (∃ bs, i = .checksum bs) ∨ (∃ bs c, i = .verify bs c) ∨
      ∃ reg payload, frameOf i = some (reg, payload) := by
  cases i with
  | crcInit | crcUpdate | crcRead | crcCheck | frmStart | frmData | frmEnd | reserved7 => exact .inl rfl
  | checksum bs => exact .inr (.inl ⟨bs, rfl⟩)
  | verify bs c => exact .inr (.inr (.inl ⟨bs, c, rfl⟩))
  | _ => exact .inr (.inr (.inr ⟨_, _, rfl⟩))

theorem commandWords_of_frameOf {i : Instr} {reg : RegAddr} {payload : List Byte}
    (h : frameOf i = some (reg, payload)) : commandWords i = frameWords reg payload := by
  cases i <;> cases h <;> rfl

/-- The commands an instruction's canonical command words decode to. -/
def commandsOf (i : Instr) : List Instr := (commandWords i).map decodeWord

theorem decodeWord_isCommandWord (w : CmdWord) : isCommandWord (decodeWord w) = true := by
  rw [decodeWord_eq_commandOf, commandOf]
  split <;> rfl

theorem commandsOf_commandWord {i : Instr} (h : isCommandWord i = true) : commandsOf i = [i] := by
  cases i with
  | crcInit | crcRead | frmEnd | reserved7 => rfl
  | crcUpdate d => exact congrArg ([·]) (decodeWord_packWord 1 0 d)
  | crcCheck c => exact congrArg ([·]) (decodeWord_packWord 3 0 c)
  | frmStart hi lo => exact congrArg ([·]) (decodeWord_packWord 4 hi lo)
  | frmData d => exact congrArg ([·]) (decodeWord_packWord 5 0 d)
  | _ => cases h

/-- The words of CHECKSUM, VERIFY or BUILD_WRITE: a first word, one word for each byte, and a last word. -/
theorem map_decodeWord_transaction (first last : CmdWord) (op : BitVec 3) (bs : List Byte) :
    (first :: (bs.map (packWord op 0) ++ [last])).map decodeWord =
      decodeWord first :: (bs.map (commandOf op 0) ++ [decodeWord last]) := by
  simp [Function.comp_def, decodeWord_packWord]

theorem commandsOf_checksum (bs : List Byte) :
    commandsOf (.checksum bs) = .crcInit :: (bs.map .crcUpdate ++ [.crcRead]) :=
  map_decodeWord_transaction _ _ 1 bs

theorem commandsOf_verify (bs : List Byte) (c : Byte) :
    commandsOf (.verify bs c) = .crcInit :: (bs.map .crcUpdate ++ [.crcCheck c]) := by
  have hlast : decodeWord (packWord 3 0 c) = .crcCheck c := decodeWord_packWord 3 0 c
  rw [← hlast]
  exact map_decodeWord_transaction _ _ 1 bs

theorem commandsOf_of_frameOf {i : Instr} {reg : RegAddr} {payload : List Byte}
    (h : frameOf i = some (reg, payload)) :
    commandsOf i = .frmStart reg.1 reg.2 :: (payload.map .frmData ++ [.frmEnd]) := by
  have hfirst : decodeWord (packWord 4 reg.1 reg.2) = .frmStart reg.1 reg.2 := decodeWord_packWord 4 _ _
  rw [commandsOf, commandWords_of_frameOf h, ← hfirst]
  exact map_decodeWord_transaction _ _ 5 payload

end Sys2Proof.Machine
end

section
/-! PROOFS that a list of commands is a transaction exactly when it is the commands of that transaction (R61). -/

namespace Sys2Proof.Machine

theorem takeUpdates_append (bs : List Byte) {i : Instr} (hi : ∀ d, i ≠ .crcUpdate d) (rest : List Instr) :
    takeUpdates (bs.map .crcUpdate ++ i :: rest) = (bs, i :: rest) := by
  induction bs with
  | nil =>
    cases i with
    | crcUpdate d => exact absurd rfl (hi d)
    | _ => rfl
  | cons b bs ih => rw [List.map_cons, List.cons_append, takeUpdates, ih]

theorem takeData_append (bs : List Byte) {i : Instr} (hi : ∀ d, i ≠ .frmData d) (rest : List Instr) :
    takeData (bs.map .frmData ++ i :: rest) = (bs, i :: rest) := by
  induction bs with
  | nil =>
    cases i with
    | frmData d => exact absurd rfl (hi d)
    | _ => rfl
  | cons b bs ih => rw [List.map_cons, List.cons_append, takeData, ih]

/-- What was taken and what was left make up the list. -/
theorem takeUpdates_spec (cmds : List Instr) : (takeUpdates cmds).1.map .crcUpdate ++ (takeUpdates cmds).2 = cmds := by
  induction cmds with
  | nil => rfl
  | cons i rest ih =>
    cases i with
    | crcUpdate d => exact congrArg (Instr.crcUpdate d :: ·) ih
    | _ => rfl

theorem takeData_spec (cmds : List Instr) : (takeData cmds).1.map .frmData ++ (takeData cmds).2 = cmds := by
  induction cmds with
  | nil => rfl
  | cons i rest ih =>
    cases i with
    | frmData d => exact congrArg (Instr.frmData d :: ·) ih
    | _ => rfl

theorem transactionOf_checksum (bs : List Byte) : transactionOf (commandsOf (.checksum bs)) = some (.checksum bs) := by
  rw [commandsOf_checksum, transactionOf, takeUpdates_append bs (by simp)]

theorem transactionOf_verify (bs : List Byte) (c : Byte) :
    transactionOf (commandsOf (.verify bs c)) = some (.verify bs c) := by
  rw [commandsOf_verify, transactionOf, takeUpdates_append bs (by simp)]

theorem transactionOf_buildWrite (hi lo : Byte) (payload : List Byte) :
    transactionOf (commandsOf (.buildWrite hi lo payload)) = some (.buildWrite hi lo payload) := by
  rw [commandsOf_of_frameOf rfl, transactionOf, takeData_append payload (by simp)]

/-- A list of commands that is read as a transaction is the commands of it, and a transaction has no format to meet. -/
theorem commandsOf_of_transactionOf {cmds : List Instr} {i : Instr} (h : transactionOf cmds = some i) :
    commandsOf i = cmds ∧ i.formatOk = true := by
  unfold transactionOf at h
  split at h
  next rest =>
    have hspec := takeUpdates_spec rest
    split at h
    next bs heq => cases h; exact ⟨by rw [commandsOf_checksum, ← hspec, heq], rfl⟩
    next bs c heq => cases h; exact ⟨by rw [commandsOf_verify, ← hspec, heq], rfl⟩
    next => cases h
  next hi lo rest =>
    have hspec := takeData_spec rest
    split at h
    next payload heq => cases h; exact ⟨by rw [commandsOf_of_frameOf rfl, ← hspec, heq], rfl⟩
    next => cases h
  next => cases h

end Sys2Proof.Machine
end

section
/-! PROOFS about decoding and encoding (30_encoding.md R46, R47, R58, R61; 42_commands.md R116). The instructions that
are encoded as a frame are read back through the row of the register map their frame belongs to. -/

namespace Sys2Proof.Machine

/-- MAX_PAYLOAD is unbounded, so nothing is turned away (log entry 5). -/
theorem frontDoor_eq (i : Instr) : frontDoor i = .ok i := rfl

theorem wellFormed_eq_formatOk (i : Instr) : i.wellFormed = i.formatOk := Bool.and_true _

theorem decode_sequence_of_transactionOf {ws : List CmdWord} {i : Instr}
    (h : transactionOf (ws.map decodeWord) = some i) : decode (.sequence ws) = .ok i := by
  rw [decode, decodeSequence, h]
  exact frontDoor_eq i

theorem transactionOf_of_decode {ws : List CmdWord} {i : Instr} (h : decode (.sequence ws) = .ok i) :
    transactionOf (ws.map decodeWord) = some i := by
  rw [decode, decodeSequence] at h
  split at h
  next j hj => cases h; exact hj
  next => cases h

theorem decode_frame_buildWrite (hi lo : Byte) (payload : List Byte) :
    decode (.frame (buildWrite hi lo payload)) = .ok (nameFrame hi lo payload) := by
  rw [decode, decodeFrame, splitFrame_buildWrite]
  exact frontDoor_eq _

/-- The bytes that are read as an instruction are the frame of an address and a payload, and it is their row. -/
theorem buildWrite_of_decode {bytes : List Byte} {i : Instr} (h : decode (.frame bytes) = .ok i) :
    ∃ hi lo payload, bytes = buildWrite hi lo payload ∧ i = nameFrame hi lo payload := by
  rw [decode, decodeFrame] at h
  split at h
  next hi lo payload hsplit => cases h; exact ⟨hi, lo, payload, eq_buildWrite_of_splitFrame hsplit, rfl⟩
  next => cases h

/-- A frame row for an address and a payload: the instruction asks for their frame and is encoded by it. -/
structure FrameRow (i : Instr) (hi lo : Byte) (payload : List Byte) : Prop where
  asks : frameOf i = some ((hi, lo), payload)
  encoded : encode i = .frame (buildWrite hi lo payload)
  format : i.formatOk = true

theorem nameFrame_frameRow (hi lo : Byte) (payload : List Byte) :
    FrameRow (nameFrame hi lo payload) hi lo payload := by
  unfold nameFrame
  split
  next =>
    split_ifs with h h h h h h h
    case neg => exact ⟨rfl, rfl, rfl⟩
    all_goals cases h; exact ⟨rfl, rfl, rfl⟩
  next p q =>
    have hword : wordPayload (joinBytes p q) = [p, q] := wordPayload_joinBytes p q
    split_ifs with hstart hpayload hinterval
    · cases hstart; rw [hpayload]; exact ⟨rfl, rfl, rfl⟩
    · cases hstart; rw [← hword]; exact ⟨rfl, rfl, rfl⟩
    · cases hinterval; rw [← hword]; exact ⟨rfl, rfl, rfl⟩
    · exact ⟨rfl, rfl, rfl⟩
  next hnil _ =>
    exact ⟨rfl, rfl, by simpa [Instr.formatOk] using hnil⟩

theorem frameBytes_of_frameOf {i : Instr} {reg : RegAddr} {payload : List Byte}
    (h : frameOf i = some (reg, payload)) : frameBytes i = buildWrite reg.1 reg.2 payload := by
  rw [frameBytes, h]

/-- Where a row is the one its frame is read as, it is read back from its encoding. -/
theorem decode_encode_of_nameFrame {i : Instr} {reg : RegAddr} {payload : List Byte}
    (hframe : frameOf i = some (reg, payload)) (hencode : encode i = .frame (frameBytes i))
    (hname : nameFrame reg.1 reg.2 payload = i) : decode (encode i) = .ok i := by
  rw [hencode, frameBytes_of_frameOf hframe, decode_frame_buildWrite, hname]

theorem encode_of_commandWord {i : Instr} (h : isCommandWord i = true) :
    ∃ w, encode i = .word w ∧ commandWords i = [w] := by
  cases i with
  | crcInit | crcUpdate | crcRead | crcCheck | frmStart | frmData | frmEnd | reserved7 => exact ⟨_, rfl, rfl⟩
  | _ => cases h

theorem decode_encode_of_commandWord {i : Instr} (h : isCommandWord i = true) : decode (encode i) = .ok i := by
  obtain ⟨w, hencode, hwords⟩ := encode_of_commandWord h
  have hcommands : [decodeWord w] = [i] := by rw [← commandsOf_commandWord h, commandsOf, hwords]; rfl
  rw [hencode]
  exact congrArg Except.ok (List.singleton_inj.mp hcommands)

theorem nameFrame_writeMeasInterval (v : Word16) :
    nameFrame measInterval.1 measInterval.2 (wordPayload v) = .writeMeasInterval v :=
  congrArg Instr.writeMeasInterval (joinBytes_hiByte_loByte v)

theorem nameFrame_triggerContMeas {p : Word16} (hp : p ≠ 0x0300) :
    nameFrame startMeasurement.1 startMeasurement.2 (wordPayload p) = .triggerContMeas p := by
  have hpayload : wordPayload p ≠ startPayload := fun h => by
    obtain ⟨hhi, hlo⟩ : hiByte p = 0x03 ∧ loByte p = 0x00 := by simpa [wordPayload, startPayload] using h
    have hjoin : joinBytes 0x03 0x00 = 0x0300 := rfl
    exact hp (by rw [← joinBytes_hiByte_loByte p, hhi, hlo, hjoin])
  have hname : nameFrame startMeasurement.1 startMeasurement.2 (wordPayload p) =
      if wordPayload p = startPayload then .startMeasurementPm
      else .triggerContMeas (joinBytes (hiByte p) (loByte p)) := rfl
  rw [hname, if_neg hpayload, joinBytes_hiByte_loByte]

/-- Every instruction but the ones whose frame another row may have is read back from its encoding. -/
theorem decode_encode {i : Instr} (hF0 : ∀ hi lo, i ≠ .frameF0 hi lo) (hF1 : ∀ hi lo p, i ≠ .frameF1 hi lo p)
    (htrigger : i ≠ .triggerContMeas 0x0300) : decode (encode i) = .ok i := by
  cases i with
  | crcInit | crcUpdate | crcRead | crcCheck | frmStart | frmData | frmEnd | reserved7 =>
    exact decode_encode_of_commandWord rfl
  | checksum bs => exact decode_sequence_of_transactionOf (transactionOf_checksum bs)
  | verify bs c => exact decode_sequence_of_transactionOf (transactionOf_verify bs c)
  | buildWrite hi lo payload => exact decode_sequence_of_transactionOf (transactionOf_buildWrite hi lo payload)
  | frameF0 hi lo => exact absurd rfl (hF0 hi lo)
  | frameF1 hi lo payload => exact absurd rfl (hF1 hi lo payload)
  | writeMeasInterval v => exact decode_encode_of_nameFrame rfl rfl (nameFrame_writeMeasInterval v)
  | triggerContMeas p =>
    exact decode_encode_of_nameFrame rfl rfl (nameFrame_triggerContMeas fun h => htrigger (congrArg _ h))
  | _ => exact decode_encode_of_nameFrame rfl rfl rfl

/-- An address that no row of the map has without a payload is read as a frame of format F0. -/
theorem nameFrame_frameF0 {hi lo : Byte} (h : (hi, lo) ∉ [articleCode, serialNumber, cleaningInterval,
    stopMeasurement, measInterval, readyStatus, measResult]) : nameFrame hi lo [] = .frameF0 hi lo := by
  simp only [List.mem_cons, List.not_mem_nil, or_false, not_or] at h
  obtain ⟨h1, h2, h3, h4, h5, h6, h7⟩ := h
  rw [nameFrame, if_neg h1, if_neg h2, if_neg h3, if_neg h4, if_neg h5, if_neg h6, if_neg h7]

/-- A payload is read as a frame of format F1 unless it has two bytes and an address of the map. -/
theorem nameFrame_frameF1 {hi lo : Byte} {payload : List Byte} (hne : payload ≠ [])
    (h : ¬ (payload.length = 2 ∧ ((hi, lo) = startMeasurement ∨ (hi, lo) = measInterval))) :
    nameFrame hi lo payload = .frameF1 hi lo payload := by
  unfold nameFrame
  split
  next => exact absurd rfl hne
  next p q =>
    have haddress : ¬ ((hi, lo) = startMeasurement ∨ (hi, lo) = measInterval) := fun ha => h ⟨rfl, ha⟩
    rw [if_neg fun hs => haddress (.inl hs), if_neg fun hm => haddress (.inr hm)]
  next => rfl

theorem encode_frameF1_pair (hi lo p q : Byte) :
    encode (.frameF1 hi lo [p, q]) = .frame (buildWrite hi lo (wordPayload (joinBytes p q))) := by
  rw [wordPayload_joinBytes]
  rfl

/-- Settles O18: a command word is read back by its fields, a transaction by its commands, and a frame by its row of
the map; the rows that share a frame are encoded by that frame. -/
theorem decodeInvertsEncode : Obligations.DecodeInvertsEncode := by
  unfold Obligations.DecodeInvertsEncode
  exact ⟨fun _ _ => decode_encode, decode_frame_buildWrite _ _ startPayload,
    fun _ _ h => decode_encode_of_nameFrame rfl rfl (nameFrame_frameF0 h),
    fun _ _ _ hne h => decode_encode_of_nameFrame rfl rfl (nameFrame_frameF1 hne h),
    rfl, rfl, rfl, rfl, rfl, rfl, rfl, encode_frameF1_pair 0x00 0x10, encode_frameF1_pair 0x46 0x00⟩

theorem wellFormed_of_decode {x : Input} {i : Instr} (h : decode x = .ok i) : i.wellFormed = true := by
  rw [wellFormed_eq_formatOk]
  cases x with
  | word w =>
    cases h
    rw [decodeWord_eq_commandOf, commandOf]
    split <;> rfl
  | sequence ws => exact (commandsOf_of_transactionOf (transactionOf_of_decode h)).2
  | frame bytes =>
    obtain ⟨hi, lo, payload, -, rfl⟩ := buildWrite_of_decode h
    exact (nameFrame_frameRow hi lo payload).format

theorem encode_of_decode_frame {bytes : List Byte} {i : Instr} (h : decode (.frame bytes) = .ok i) :
    encode i = .frame bytes := by
  obtain ⟨hi, lo, payload, rfl, rfl⟩ := buildWrite_of_decode h
  exact (nameFrame_frameRow hi lo payload).encoded

/-- Settles O19: a list of command words is read as the transaction whose commands they decode to, a frame as a row
that is encoded by it. -/
theorem encodeInvertsDecode : Obligations.EncodeInvertsDecode := by
  unfold Obligations.EncodeInvertsDecode
  exact ⟨fun _ _ => wellFormed_of_decode, fun _ _ => encode_of_decode_frame,
    fun _ _ h => (commandsOf_of_transactionOf (transactionOf_of_decode h)).1⟩

/-- Settles O17: closed values of the decoder; the frames of five bytes have their checksums evaluated. -/
theorem tableWordsDecode : Obligations.TableWordsDecode := by
  unfold Obligations.TableWordsDecode
  exact ⟨rfl, rfl, rfl, rfl, rfl, rfl, by decide +kernel, by decide +kernel, by decide +kernel⟩

end Sys2Proof.Machine
end

section
/-! PROOFS about instructions as runs of commands (00_scope.md section 6, 30_encoding.md R61, R62). Every instruction
has a next state, which is the run of its commands; so what every command keeps, every instruction keeps. -/

namespace Sys2Proof.Machine

/-- The state an instruction leads to. By `exec_eq_next` the first case is the only one that occurs. -/
def nextState (i : Instr) (s : State) : State :=
  match exec i s with
  | .next t => t
  | .fault _ => s
  | .refused _ => s

/-- No arm of `exec` stops the block. -/
theorem exec_eq_next (i : Instr) (s : State) : exec i s = .next (nextState i s) := by
  cases i <;> rfl

theorem nextState_of_exec {i : Instr} {s t : State} (h : exec i s = .next t) : nextState i s = t :=
  Host.Outcome.next.inj ((exec_eq_next i s).symm.trans h)

/-- A run of instructions is the run of their next states. -/
theorem execAll_eq_runAll (cmds : List Instr) (s : State) : execAll cmds s = .next (runAll (cmds.map nextState) s) := by
  induction cmds generalizing s with
  | nil => rfl
  | cons i rest ih => rw [execAll_cons_of_next (exec_eq_next i s), ih, List.map_cons, runAll_cons]

theorem execAll_singleton (i : Instr) (s : State) : execAll [i] s = exec i s := by
  rw [execAll_cons_of_next (exec_eq_next i s), execAll_nil, exec_eq_next]

theorem nextState_of_frameOf {i : Instr} {reg : RegAddr} {payload : List Byte} (h : frameOf i = some (reg, payload)) :
    nextState i = doBuildWrite reg.1 reg.2 payload := by
  cases i <;> cases h <;> rfl

theorem map_nextState_transaction (first last : Instr) (body : Byte → Instr) (bs : List Byte) :
    (first :: (bs.map body ++ [last])).map nextState =
      nextState first :: (bs.map (fun b => nextState (body b)) ++ [nextState last]) := by
  simp [Function.comp_def]

/-- An instruction is the run of its commands. -/
theorem nextState_eq_runAll_commandsOf (i : Instr) : nextState i = runAll ((commandsOf i).map nextState) := by
  obtain hword | ⟨bs, rfl⟩ | ⟨bs, c, rfl⟩ | ⟨reg, payload, hframe⟩ := instr_cases i
  · rw [commandsOf_commandWord hword]
    rfl
  · rw [commandsOf_checksum, map_nextState_transaction]
    rfl
  · rw [commandsOf_verify, map_nextState_transaction]
    rfl
  · rw [commandsOf_of_frameOf hframe, map_nextState_transaction, nextState_of_frameOf hframe]
    rfl

theorem isCommandWord_of_mem_commandsOf {i c : Instr} (h : c ∈ commandsOf i) : isCommandWord c = true := by
  obtain ⟨w, -, rfl⟩ := List.mem_map.mp h
  exact decodeWord_isCommandWord w

/-- What every command keeps, every instruction keeps. -/
theorem nextState_keeps {P : State → Prop} (hcommand : ∀ c, isCommandWord c = true → ∀ s, P s → P (nextState c s))
    (i : Instr) {s : State} (hs : P s) : P (nextState i s) := by
  rw [nextState_eq_runAll_commandsOf]
  refine runAll_keeps (fun f hf => ?_) s hs
  obtain ⟨c, hc, rfl⟩ := List.mem_map.mp hf
  exact hcommand c (isCommandWord_of_mem_commandsOf hc)

/-- Settles O25: no arm of `exec` stops the block, and a command word always decodes to an instruction. -/
theorem nothingStopsTheBlock : Obligations.NothingStopsTheBlock := by
  unfold Obligations.NothingStopsTheBlock
  exact ⟨fun i s => ⟨_, exec_eq_next i s⟩,
    fun _ w _ hport => ⟨_, (step_of_decode_ok hport rfl).trans (exec_eq_next (decodeWord w) _)⟩⟩

/-- An instruction begins with a command that is legal outside a frame, unless it is FRM.DATA, FRM.END or reserved. -/
theorem commandsOf_begins_outsideFrame {i : Instr} (hend : i ≠ .frmEnd) (hdata : ∀ d, i ≠ .frmData d)
    (hdefined : i ≠ .reserved7) :
    ∃ c rest, commandsOf i = c :: rest ∧ (isCrcCommand c = true ∨ ∃ hi lo, c = .frmStart hi lo) := by
  obtain hword | ⟨bs, rfl⟩ | ⟨bs, c, rfl⟩ | ⟨reg, payload, hframe⟩ := instr_cases i
  · obtain houtside | (rfl | ⟨d, rfl⟩) | rfl := commandWord_cases hword
    · exact ⟨i, [], commandsOf_commandWord hword, houtside⟩
    · exact absurd rfl hend
    · exact absurd rfl (hdata d)
    · exact absurd rfl hdefined
  · exact ⟨_, _, commandsOf_checksum bs, .inl rfl⟩
  · exact ⟨_, _, commandsOf_verify bs c, .inl rfl⟩
  · exact ⟨_, _, commandsOf_of_frameOf hframe, .inr ⟨_, _, rfl⟩⟩

theorem exec_eq_execAll_commandsOf (i : Instr) (s : State) : exec i s = execAll (commandsOf i) s := by
  rw [execAll_eq_runAll, exec_eq_next, nextState_eq_runAll_commandsOf]

/-- Handed over in an open frame an instruction takes the fault of its first command, and the rest of it is frozen. -/
theorem exec_of_opened {i : Instr} {s : State} (he : s.err = false) (hp : s.phase = .opened) (hend : i ≠ .frmEnd)
    (hdata : ∀ d, i ≠ .frmData d) (hdefined : i ≠ .reserved7) : exec i s = .next (faulted .seqError s) := by
  obtain ⟨c, rest, hcommands, houtside⟩ := commandsOf_begins_outsideFrame hend hdata hdefined
  rw [exec_eq_execAll_commandsOf, hcommands, execAll_cons_of_next (exec_outsideFrame_of_opened houtside he hp),
    execAll_of_err rfl]

/-- Settles O35: the fault of the commands that need an open frame, of everything else in one, and of the reserved
opcode. -/
theorem faultEntryWritesOnlyErr : Obligations.FaultEntryWritesOnlyErr := by
  unfold Obligations.FaultEntryWritesOnlyErr
  exact ⟨fun _ _ he hp hi => exec_insideFrame_of_idle hi he hp, fun _ _ => exec_of_opened,
    fun _ => exec_reserved7_of_live⟩

end Sys2Proof.Machine
end

section
/-! PROOFS about the transactions at a boundary (40_crc8.md R80 to R82, 41_frame.md R99, R100; 70_reset_and_hazards.md
R150). -/

namespace Sys2Proof.Machine

/-- At a boundary CRC.UPDATE commands absorb their bytes, whatever follows them. -/
theorem execAll_crcUpdate {s : State} (hs : Boundary s) (bs : List Byte) (rest : List Instr) :
    execAll (bs.map .crcUpdate ++ rest) s = execAll rest (setCrc (crcFrom s.crc bs) s) := by
  obtain ⟨he, hp⟩ := hs
  have hupdates : ((bs.map Instr.crcUpdate).map nextState) = bs.map doCrcUpdate := by
    rw [List.map_map]; rfl
  rw [execAll_eq_runAll, execAll_eq_runAll, List.map_append, runAll_append, hupdates, runAll_crcUpdate he hp]

/-- Settles O48: the bytes are absorbed into what the register holds, and CRC.READ answers it. -/
theorem messageWithoutInit : Obligations.MessageWithoutInit := by
  unfold Obligations.MessageWithoutInit
  intro s bs hs
  rw [execAll_crcUpdate hs, execAll_singleton]
  exact exec_crcRead_of_idle (s := setCrc _ s) hs.1 hs.2

/-- CHECKSUM and VERIFY at a boundary: after CRC.INIT and the updates the register holds the checksum. -/
theorem execAll_crcInit_crcUpdate {s : State} (hs : Boundary s) (bs : List Byte) (rest : List Instr) :
    execAll (.crcInit :: (bs.map .crcUpdate ++ rest)) s = execAll rest (setCrc (checksum bs) s) := by
  obtain ⟨he, hp⟩ := hs
  rw [execAll_cons_of_next (exec_crcInit_of_idle he hp), execAll_crcUpdate (s := setCrc Config.init s) ⟨he, hp⟩,
    checksum_eq_crcMsg, crcMsg_eq_crcFrom]
  rfl

theorem exec_checksum_of_boundary {s : State} (hs : Boundary s) (bs : List Byte) :
    exec (.checksum bs) s = .next { s with crc := checksum bs, rsp := s.rsp ++ [.rspCrc (checksum bs)] } := by
  rw [exec_eq_execAll_commandsOf, commandsOf_checksum, execAll_crcInit_crcUpdate hs, execAll_singleton]
  exact exec_crcRead_of_idle (s := setCrc _ s) hs.1 hs.2

theorem exec_verify_of_boundary {s : State} (hs : Boundary s) (bs : List Byte) (c : Byte) :
    exec (.verify bs c) s =
      .next { s with crc := checksum bs, rsp := s.rsp ++ [.rspMatch (checksum bs == c)] } := by
  rw [exec_eq_execAll_commandsOf, commandsOf_verify, execAll_crcInit_crcUpdate hs, execAll_singleton]
  exact exec_crcCheck_of_idle (s := setCrc (checksum bs) s) hs.1 hs.2 c

/-- Settles O43: CRC.INIT and the updates leave the checksum in the register, and CRC.READ answers it. -/
theorem checksumTransaction : Obligations.ChecksumTransaction := by
  unfold Obligations.ChecksumTransaction
  exact fun _ bs hs => exec_checksum_of_boundary hs bs

/-- Settles O44: the same run, and CRC.CHECK compares the checksum it left. -/
theorem verifyTransaction : Obligations.VerifyTransaction := by
  unfold Obligations.VerifyTransaction
  exact fun _ bs c hs => exec_verify_of_boundary hs bs c

theorem exec_eq_doBuildWrite {i : Instr} {reg : RegAddr} {payload : List Byte} (h : frameOf i = some (reg, payload))
    (s : State) : exec i s = .next (doBuildWrite reg.1 reg.2 payload s) := by
  rw [exec_eq_next, nextState_of_frameOf h]

/-- At a boundary an instruction that asks for a frame sends it. -/
theorem exec_of_frameOf {i : Instr} {reg : RegAddr} {payload : List Byte} (h : frameOf i = some (reg, payload))
    {s : State} (hs : Boundary s) :
    exec i s = .next { s with
      tx := s.tx ++ (buildWrite reg.1 reg.2 payload).map .txByte ++ [.txEnd],
      crc := checksum payload, nonempty := !payload.isEmpty, phase := .idle } := by
  rw [exec_eq_doBuildWrite h, doBuildWrite_of_boundary hs]

/-- Settles O45: BUILD_WRITE is itself an instruction that asks for a frame. -/
theorem buildWriteTransaction : Obligations.BuildWriteTransaction := by
  unfold Obligations.BuildWriteTransaction
  exact fun _ hi lo payload hs => exec_of_frameOf (i := .buildWrite hi lo payload) rfl hs

theorem frameless_cases {i : Instr} (h : frameOf i = none) :
    isCommandWord i = true ∨ (∃ bs, i = .checksum bs) ∨ ∃ bs c, i = .verify bs c := by
  obtain hword | hchecksum | hverify | ⟨_, _, hframe⟩ := instr_cases i
  · exact .inl hword
  · exact .inr (.inl hchecksum)
  · exact .inr (.inr hverify)
  · cases h.symm.trans hframe

/-- Settles O49: the row's frame is its BUILD_WRITE, and the kinds of instruction are a command word, CHECKSUM,
VERIFY and a frame. -/
theorem frameRowsAreBuildWrite : Obligations.FrameRowsAreBuildWrite := by
  unfold Obligations.FrameRowsAreBuildWrite
  exact ⟨fun _ _ _ h s => exec_eq_doBuildWrite h s, fun _ _ _ h _ => exec_of_frameOf h, fun _ => frameless_cases⟩

/-- Settles O47: the effect of a transaction at a boundary mentions neither the register nor `nonempty` before it. -/
theorem transactionsForgetThePast : Obligations.TransactionsForgetThePast := by
  unfold Obligations.TransactionsForgetThePast
  intro i s c n hword hs
  have hs' : Boundary { s with crc := c, nonempty := n } := hs
  obtain ⟨he, hp⟩ := hs
  obtain hword' | ⟨bs, rfl⟩ | ⟨bs, d, rfl⟩ | ⟨reg, payload, hframe⟩ := instr_cases i
  · cases hword.symm.trans hword'
  · exact ⟨_, _, exec_checksum_of_boundary ⟨he, hp⟩ bs, exec_checksum_of_boundary hs' bs, rfl, rfl, rfl, ⟨he, hp⟩, hs'⟩
  · exact ⟨_, _, exec_verify_of_boundary ⟨he, hp⟩ bs d, exec_verify_of_boundary hs' bs d, rfl, rfl, rfl, ⟨he, hp⟩, hs'⟩
  · exact ⟨_, _, exec_of_frameOf hframe ⟨he, hp⟩, exec_of_frameOf hframe hs', rfl, rfl, rfl, ⟨he, rfl⟩, he, rfl⟩

/-- Settles O52: format F1 asks for the frame of its payload, which is not empty. -/
theorem payloadFrameRow : Obligations.PayloadFrameRow := by
  unfold Obligations.PayloadFrameRow
  intro hi lo payload hlen
  have hframe : buildWrite hi lo payload = [hi, lo] ++ payload ++ [checksum payload] := buildWrite_of_payload hi lo hlen
  refine ⟨congrArg Input.frame hframe, by simp, rfl, fun s hs => ?_⟩
  have hne : payload.isEmpty = false := by rw [List.isEmpty_eq_false_iff]; exact List.ne_nil_of_length_pos hlen
  rw [exec_of_frameOf rfl hs, hframe, hne]
  rfl

/-- Settles O53: accepted bytes are the frame their row of the map asks for. -/
theorem decodedFrameIsSent : Obligations.DecodedFrameIsSent := by
  unfold Obligations.DecodedFrameIsSent
  intro bytes i s hdec hs
  obtain ⟨hi, lo, payload, rfl, rfl⟩ := buildWrite_of_decode hdec
  have hframe := (nameFrame_frameRow hi lo payload).asks
  have hpayload : (nameFrame hi lo payload).payload = payload := by rw [Instr.payload, hframe]
  rw [exec_of_frameOf hframe hs, hpayload]

/-- An instruction that asks for the frame of an address alone sends it. -/
theorem sendsAddressFrame_of_frameOf {i : Instr} {hi lo : Byte} (hframe : frameOf i = some ((hi, lo), []))
    (hencode : encode i = .frame (frameBytes i)) : SendsAddressFrame i hi lo := by
  have hwords : frameWords (hi, lo) [] = [packWord 4 hi lo, 0x60000] := rfl
  refine ⟨by rw [hencode, frameBytes_of_frameOf hframe, buildWrite_nil], (commandWords_of_frameOf hframe).trans hwords,
    fun s hs => ?_⟩
  rw [exec_of_frameOf hframe hs, buildWrite_nil, List.append_assoc]
  rfl

/-- Settles O50: each row asks for the frame of its address alone; the read lengths stand in the map. -/
theorem addressFrameRows : Obligations.AddressFrameRows := by
  unfold Obligations.AddressFrameRows
  exact ⟨fun _ _ => sendsAddressFrame_of_frameOf rfl rfl, sendsAddressFrame_of_frameOf rfl rfl,
    sendsAddressFrame_of_frameOf rfl rfl, sendsAddressFrame_of_frameOf rfl rfl, sendsAddressFrame_of_frameOf rfl rfl,
    sendsAddressFrame_of_frameOf rfl rfl, sendsAddressFrame_of_frameOf rfl rfl, sendsAddressFrame_of_frameOf rfl rfl,
    rfl, rfl, rfl, rfl, rfl, rfl, rfl⟩

end Sys2Proof.Machine
end

section
/-! PROOFS about the histories and the port (10_state.md section 7, 20_memory.md section 5): no command reads them, so
with others in their place it does the same to the rest of the state and appends the same events. -/

namespace Sys2Proof.Machine

/-- A state with other histories, marks and port in place of its own. -/
def withHistories (tx : List TxEvent) (rsp : List RspEvent) (cuts : List Nat) (port : List PortEvent) (s : State) :
    State :=
  { s with tx := tx, rsp := rsp, cuts := cuts, port := port }

/-- An effect that appends `xs` to `tx` and `ys` to `rsp` at a state, whatever histories, marks and port it is given. -/
def AppendsAt (f : State → State) (s : State) (xs : List TxEvent) (ys : List RspEvent) : Prop :=
  ∀ tx rsp cuts port,
    f (withHistories tx rsp cuts port s) = withHistories (tx ++ xs) (rsp ++ ys) cuts port (f s)

/-- An effect that reads no history, mark or port, and changes the histories by appending only. -/
def ReadsNoHistory (f : State → State) : Prop := ∀ s, ∃ xs ys, AppendsAt f s xs ys

/-- What it appends stands in the state it leads to, and marks and port are as before. -/
theorem AppendsAt.histories {f : State → State} {s : State} {xs : List TxEvent} {ys : List RspEvent}
    (h : AppendsAt f s xs ys) :
    (f s).tx = s.tx ++ xs ∧ (f s).rsp = s.rsp ++ ys ∧ (f s).cuts = s.cuts ∧ (f s).port = s.port := by
  have hself : f s = withHistories (s.tx ++ xs) (s.rsp ++ ys) s.cuts s.port (f s) := h s.tx s.rsp s.cuts s.port
  rw [hself]
  exact ⟨rfl, rfl, rfl, rfl⟩

theorem AppendsAt.comp {f g : State → State} {s : State} {xs xs' : List TxEvent} {ys ys' : List RspEvent}
    (hf : AppendsAt f s xs ys) (hg : AppendsAt g (f s) xs' ys') :
    AppendsAt (g ∘ f) s (xs ++ xs') (ys ++ ys') := by
  intro tx rsp cuts port
  rw [Function.comp_apply, Function.comp_apply, hf, hg, List.append_assoc, List.append_assoc]

/-- An effect that leaves histories, marks and port alone appends nothing. -/
theorem appendsAt_nil {f : State → State} {s : State}
    (h : ∀ tx rsp cuts port, f (withHistories tx rsp cuts port s) = withHistories tx rsp cuts port (f s)) :
    AppendsAt f s [] [] := by
  intro tx rsp cuts port
  rw [h, List.append_nil, List.append_nil]

theorem readsNoHistory_runAll {fs : List (State → State)} (h : ∀ f ∈ fs, ReadsNoHistory f) :
    ReadsNoHistory (runAll fs) := by
  induction fs with
  | nil => exact fun _ => ⟨[], [], appendsAt_nil fun _ _ _ _ => rfl⟩
  | cons f fs ih =>
    intro s
    obtain ⟨hf, hfs⟩ := List.forall_mem_cons.mp h
    obtain ⟨xs, ys, hfirst⟩ := hf s
    obtain ⟨xs', ys', hrest⟩ := ih hfs (f s)
    exact ⟨_, _, hfirst.comp hrest⟩

/-- The checks of a command read `err` and `phase` only, and a fault appends nothing. -/
theorem readsNoHistory_whenLegal (need : Phase) {effect : State → State} (h : ReadsNoHistory effect) :
    ReadsNoHistory (whenLegal need effect) := by
  intro s
  obtain ⟨he, hfrozen⟩ | ⟨he, hp, hlegal⟩ | ⟨he, hp, hfault⟩ := whenLegal_cases need effect s
  · exact ⟨[], [], appendsAt_nil fun _ _ _ _ => by rw [hfrozen]; exact whenLegal_of_err he⟩
  · obtain ⟨xs, ys, happends⟩ := h s
    exact ⟨xs, ys, fun _ _ _ _ => by rw [hlegal, ← happends]; exact whenLegal_of_legal he hp⟩
  · exact ⟨[], [], appendsAt_nil fun _ _ _ _ => by rw [hfault]; exact whenLegal_of_illegal he hp⟩

theorem readsNoHistory_doReserved7 : ReadsNoHistory doReserved7 := by
  refine fun s => ⟨[], [], appendsAt_nil fun _ _ _ _ => ?_⟩
  by_cases he : s.err = true
  · rw [doReserved7, whenLive_of_err he]
    exact whenLive_of_err he
  · rw [doReserved7, whenLive_of_live (Bool.eq_false_iff.mpr he)]
    exact whenLive_of_live (Bool.eq_false_iff.mpr he)

/-- FRM.END appends the checksum when `nonempty` says so, and `TxEnd`. -/
theorem readsNoHistory_doFrmEnd : ReadsNoHistory doFrmEnd := by
  refine readsNoHistory_whenLegal _ fun s => ?_
  cases hn : s.nonempty with
  | true =>
    exact ⟨[.txByte (readOut s.crc), .txEnd], [], fun _ _ _ _ => by
      simp [withHistories, hasChecksum, hn, emitEnd_emit, setPhase]⟩
  | false => exact ⟨[.txEnd], [], fun _ _ _ _ => by simp [withHistories, hasChecksum, hn, emitEnd, setPhase]⟩

/-- No command reads the histories, the marks or the port. Each case names the events the command appends. -/
theorem readsNoHistory_commandWord {i : Instr} (h : isCommandWord i = true) : ReadsNoHistory (nextState i) := by
  cases i with
  | crcInit => exact readsNoHistory_whenLegal _ fun _ => ⟨[], [], appendsAt_nil fun _ _ _ _ => rfl⟩
  | crcUpdate d => exact readsNoHistory_whenLegal _ fun _ => ⟨[], [], appendsAt_nil fun _ _ _ _ => rfl⟩
  | crcRead =>
    exact readsNoHistory_whenLegal _ fun s => ⟨[], [.rspCrc (readOut s.crc)], fun _ _ _ _ => by
      simp [withHistories, respond]⟩
  | crcCheck c =>
    exact readsNoHistory_whenLegal _ fun s => ⟨[], [.rspMatch (matchFlag s.crc c)], fun _ _ _ _ => by
      simp [withHistories, respond]⟩
  | frmStart hi lo =>
    exact readsNoHistory_whenLegal _ fun _ => ⟨[.txByte hi, .txByte lo], [], fun _ _ _ _ => by
      simp [withHistories, emit_emit, setCrc, setNonempty, setPhase]⟩
  | frmData d =>
    exact readsNoHistory_whenLegal _ fun _ => ⟨[.txByte d], [], fun _ _ _ _ => by
      simp [withHistories, emit, setCrc, setNonempty]⟩
  | frmEnd => exact readsNoHistory_doFrmEnd
  | reserved7 => exact readsNoHistory_doReserved7
  | _ => cases h

/-- No instruction reads the histories, the marks or the port, as none of its commands does. -/
theorem readsNoHistory_nextState (i : Instr) : ReadsNoHistory (nextState i) := by
  rw [nextState_eq_runAll_commandsOf]
  refine readsNoHistory_runAll fun f hf => ?_
  obtain ⟨c, hc, rfl⟩ := List.mem_map.mp hf
  exact readsNoHistory_commandWord (isCommandWord_of_mem_commandsOf hc)

/-- Settles O42: no command reads the histories, the marks or the port, and an instruction is a run of commands. -/
theorem historiesAndPortAreNeverRead : Obligations.HistoriesAndPortAreNeverRead := by
  unfold Obligations.HistoriesAndPortAreNeverRead
  intro i s t hexec
  obtain rfl := nextState_of_exec hexec
  obtain ⟨xs, ys, happends⟩ := readsNoHistory_nextState i s
  obtain ⟨htx, hrsp, hcuts, hport⟩ := happends.histories
  exact ⟨xs, ys, htx, hrsp, hcuts, hport, fun tx rsp cuts port =>
    (exec_eq_next i _).trans (congrArg Host.Outcome.next (happends tx rsp cuts port))⟩

/-- With another port an instruction does the same and leaves that port. -/
theorem nextState_port (i : Instr) (s : State) (port : List PortEvent) :
    nextState i { s with port := port } = { nextState i s with port := port } := by
  obtain ⟨xs, ys, happends⟩ := readsNoHistory_nextState i s
  obtain ⟨htx, hrsp, hcuts, -⟩ := happends.histories
  calc nextState i { s with port := port }
      = withHistories (s.tx ++ xs) (s.rsp ++ ys) s.cuts port (nextState i s) := happends s.tx s.rsp s.cuts port
    _ = { nextState i s with port := port } := by rw [← htx, ← hrsp, ← hcuts]; rfl

theorem step_of_issueWord {s : State} {w : CmdWord} {rest : List PortEvent} (hport : s.port = issueWord w :: rest) :
    step s = exec (decodeWord w) { s with port := rest } := step_of_decode_ok hport rfl

/-- Command words on the port, a step for each, are run one after the other. -/
theorem runSteps_issueWord (ws : List CmdWord) (s : State) (rest : List PortEvent) :
    runSteps ws.length { s with port := ws.map issueWord ++ rest } =
      execAll (ws.map decodeWord) { s with port := rest } := by
  induction ws generalizing s with
  | nil => rfl
  | cons w ws ih =>
    have hstep : step { s with port := (w :: ws).map issueWord ++ rest } =
        .next { nextState (decodeWord w) s with port := ws.map issueWord ++ rest } := by
      rw [step_of_issueWord rfl, exec_eq_next]
      exact congrArg Host.Outcome.next (nextState_port (decodeWord w) s _)
    have hexec : exec (decodeWord w) { s with port := rest } =
        .next { nextState (decodeWord w) s with port := rest } := by
      rw [exec_eq_next, nextState_port]
    rw [List.length_cons, runSteps, hstep, List.map_cons, execAll_cons_of_next hexec]
    exact ih _

/-- Settles O46: the words are run one after the other, which is what the instruction does. -/
theorem instructionIsItsCommandWords : Obligations.InstructionIsItsCommandWords := by
  unfold Obligations.InstructionIsItsCommandWords
  intro i s rest
  rw [runSteps_issueWord, exec_eq_execAll_commandsOf, commandsOf]

end Sys2Proof.Machine
end

section
/-! PROOFS about a step (00_scope.md R7; log entries 2 and 8): it takes an input off the port and runs an instruction,
resets the block, or changes the port alone. What every step keeps or adds follows by these cases. -/

namespace Sys2Proof.Machine

/-- Settles O21: that is how a step takes an input that decodes. -/
theorem stepRunsDecodedInstruction : Obligations.StepRunsDecodedInstruction := by
  unfold Obligations.StepRunsDecodedInstruction
  exact fun _ _ _ _ => step_of_decode_ok

/-- Everything a step that gives a next state can do: take an input off the port and run an instruction, reset the
block, or change the port alone. -/
theorem step_cases {s t : State} (h : step s = .next t) :
    (∃ port, t = { s with port := port }) ∨ (∃ rest, s.port = .reset :: rest ∧ t = resetEvent { s with port := rest }) ∨
      ∃ x rest i, s.port = .issue x :: rest ∧ t = nextState i { s with port := rest } := by
  cases hport : s.port with
  | nil =>
    obtain rfl : s = t := Host.Outcome.next.inj ((step_of_empty_port hport).symm.trans h)
    exact .inl ⟨s.port, rfl⟩
  | cons event rest =>
    cases event with
    | reset =>
      obtain rfl := Host.Outcome.next.inj ((step_of_reset hport).symm.trans h)
      exact .inr (.inl ⟨rest, rfl, rfl⟩)
    | issue x =>
      cases hdec : decode x with
      | ok i =>
        rw [step_of_decode_ok hport hdec] at h
        exact .inr (.inr ⟨x, rest, i, rfl, (nextState_of_exec h).symm⟩)
      | error e =>
        rw [step_of_decode_error hport hdec] at h
        obtain ⟨-, hnext⟩ | ⟨-, ws, -, hnext⟩ | ⟨-, -, hrefused⟩ := rejectInput_cases e { s with port := rest }
        · exact .inl ⟨_, (Host.Outcome.next.inj (hnext.symm.trans h)).symm⟩
        · exact .inl ⟨_, (Host.Outcome.next.inj (hnext.symm.trans h)).symm⟩
        · cases hrefused.symm.trans h

/-- Settles O41, by what the step does. -/
theorem historiesOnlyGrow : Obligations.HistoriesOnlyGrow := by
  unfold Obligations.HistoriesOnlyGrow
  intro s t hstep
  obtain ⟨port, rfl⟩ | ⟨rest, -, rfl⟩ | ⟨x, rest, i, hport, rfl⟩ := step_cases hstep
  · exact ⟨[], [], [], by simp⟩
  · exact ⟨[], [], [s.tx.length], by simp⟩
  · obtain ⟨xs, ys, happends⟩ := readsNoHistory_nextState i { s with port := rest }
    obtain ⟨htx, hrsp, hcuts, -⟩ := happends.histories
    exact ⟨xs, ys, [], htx, hrsp, by rw [hcuts, List.append_nil], fun _ hreset => by cases hport.symm.trans hreset⟩

/-- Settles O38: the input is taken off the port, which a consumer of `tx` does not see. -/
theorem faultedStateIsFrozen : Obligations.FaultedStateIsFrozen := by
  unfold Obligations.FaultedStateIsFrozen
  refine ⟨fun _ i he => exec_of_err he i, fun _ _ _ => step_issue_of_err, fun s t x rest he hport hstep => ?_⟩
  obtain rfl := Host.Outcome.next.inj ((step_issue_of_err he hport).symm.trans hstep)
  exact ⟨rfl, rfl⟩

theorem decode_sequence_error {ws : List CmdWord} {e : DecodeError} (h : decode (.sequence ws) = .error e) :
    e = .notATransaction ws := by
  rw [decode, decodeSequence] at h
  split at h
  next => cases h
  next => cases h; rfl

theorem decode_frame_error {bytes : List Byte} {e : DecodeError} (h : decode (.frame bytes) = .error e) :
    e = .notAFrame bytes := by
  rw [decode, decodeFrame] at h
  split at h
  next => cases h
  next => cases h; rfl

theorem rejectInput_notATransaction {s : State} (he : s.err = false) (ws : List CmdWord) :
    rejectInput (.notATransaction ws) s = .next { s with port := ws.map issueWord ++ s.port } :=
  if_neg (Bool.eq_false_iff.mp he)

theorem rejectInput_notAFrame {s : State} (he : s.err = false) (bytes : List Byte) :
    rejectInput (.notAFrame bytes) s = .refused (.notAnInstruction (.notAFrame bytes)) :=
  if_neg (Bool.eq_false_iff.mp he)

/-- Settles O24: the one error each kind of input can give, and what is done with it. -/
theorem stepWithoutInstruction : Obligations.StepWithoutInstruction := by
  unfold Obligations.StepWithoutInstruction
  refine ⟨fun _ => step_of_empty_port, fun s ws rest e hport he hdec => ?_, fun s bytes rest e hport he hdec => ?_⟩
  · obtain rfl := decode_sequence_error hdec
    rw [step_of_decode_error hport hdec]
    exact rejectInput_notATransaction (s := { s with port := rest }) he ws
  · obtain rfl := decode_frame_error hdec
    rw [step_of_decode_error hport hdec]
    exact rejectInput_notAFrame (s := { s with port := rest }) he bytes

end Sys2Proof.Machine
end

section
/-! PROOFS about the invariant of the reachable states (10_state.md R24): a command keeps it because it changes the
unclosed bytes, the register and `nonempty` together; an instruction is a run of commands, and a step is an
instruction, a reset or a change of the port alone. -/

namespace Sys2Proof.Machine

/-- The unclosed run is what is left of it at the end of `tx`. -/
theorem cutAt_openRun (s : State) : cutAt s.cuts s.tx.length s.openRun = s.openRun := by
  have h := congrArg Prod.snd (scanTx_append s.cuts 0 [] s.tx [])
  rw [List.append_nil, Nat.zero_add] at h
  exact h.symm

/-- Bytes sent after the last mark are added to the unclosed run. -/
theorem scanTx_bytes {cuts : List Nat} {pos : Nat} (hmarks : ∀ m ∈ cuts, m ≤ pos) {run : List Byte}
    (hrun : cutAt cuts pos run = run) (bytes : List Byte) :
    scanTx cuts pos run (bytes.map .txByte) = ([], run ++ bytes) := by
  induction bytes generalizing pos run with
  | nil => rw [List.map_nil, scanTx_nil, hrun, List.append_nil]
  | cons b rest ih =>
    have hpast : pos + 1 ∉ cuts := fun hmem => Nat.not_succ_le_self pos (hmarks _ hmem)
    rw [List.map_cons, scanTx_byte, hrun,
      ih (fun m hm => Nat.le_succ_of_le (hmarks m hm)) (cutAt_of_not_mem hpast _), List.append_assoc,
      List.singleton_append]

/-- The unclosed run of a state that has sent more events than another. -/
theorem openRun_of_append {s t : State} {es : List TxEvent} (htx : t.tx = s.tx ++ es) (hcuts : t.cuts = s.cuts) :
    t.openRun = (scanTx s.cuts s.tx.length s.openRun es).2 := by
  rw [State.openRun, htx, hcuts, scanTx_append, Nat.zero_add]
  rfl

theorem openRun_of_bytes {s t : State} (hmarks : ∀ m ∈ s.cuts, m ≤ s.tx.length) {bytes : List Byte}
    (htx : t.tx = s.tx ++ bytes.map .txByte) (hcuts : t.cuts = s.cuts) : t.openRun = s.openRun ++ bytes := by
  rw [openRun_of_append htx hcuts, scanTx_bytes hmarks (cutAt_openRun s)]

theorem openRun_of_end {s t : State} (hmarks : ∀ m ∈ s.cuts, m ≤ s.tx.length) {bytes : List Byte}
    (htx : t.tx = s.tx ++ (bytes.map .txByte ++ [.txEnd])) (hcuts : t.cuts = s.cuts) : t.openRun = [] := by
  rw [openRun_of_append htx hcuts, scanTx_bytes_end hmarks (cutAt_openRun s)]

/-- The port plays no part in the invariant. -/
theorem stateInv_port {s : State} (h : StateInv s) (port : List PortEvent) : StateInv { s with port := port } :=
  ⟨h.code, h.marks, h.closed, h.frame⟩

/-- While `err` is 1 the invariant asks for the cause and for the marks only. -/
theorem stateInv_faulted {s : State} {k : ErrCode} (h : StateInv s) (hk : k ≠ .none) : StateInv (faulted k s) :=
  ⟨iff_of_false Bool.noConfusion hk, h.marks, fun he => Bool.noConfusion he, fun he => Bool.noConfusion he⟩

theorem marks_append {s : State} (h : StateInv s) (es : List TxEvent) : ∀ m ∈ s.cuts, m ≤ (s.tx ++ es).length :=
  fun m hm => (h.marks m hm).trans (by simp)

/-- Outside a frame the invariant does not speak of the register. -/
theorem stateInv_setCrc {s : State} (h : StateInv s) (hp : s.phase = .idle) (c : Byte) : StateInv (setCrc c s) :=
  ⟨h.code, h.marks, h.closed, fun _ hopened => Phase.noConfusion (hp.symm.trans hopened)⟩

theorem stateInv_respond {s : State} (h : StateInv s) (e : RspEvent) : StateInv (respond e s) :=
  ⟨h.code, h.marks, h.closed, h.frame⟩

theorem stateInv_crcCommand {i : Instr} (hi : isCrcCommand i = true) {s : State} (h : StateInv s)
    (he : s.err = false) (hp : s.phase = .idle) : ∃ t, exec i s = .next t ∧ StateInv t :=
  match i, hi with
  | .crcInit, _ => ⟨_, exec_crcInit_of_idle he hp, stateInv_setCrc h hp _⟩
  | .crcUpdate d, _ => ⟨_, exec_crcUpdate_of_idle he hp d, stateInv_setCrc h hp _⟩
  | .crcRead, _ => ⟨_, exec_crcRead_of_idle he hp, stateInv_respond h _⟩
  | .crcCheck c, _ => ⟨_, exec_crcCheck_of_idle he hp c, stateInv_respond h _⟩

/-- FRM.START begins a run of the two address bytes, with no payload yet. -/
theorem stateInv_frmStart {s : State} (h : StateInv s) (he : s.err = false) (hp : s.phase = .idle) (hi lo : Byte) :
    ∃ t, exec (.frmStart hi lo) s = .next t ∧ StateInv t := by
  refine ⟨_, exec_frmStart_of_idle he hp hi lo, h.code, marks_append h _, fun _ hidle => Phase.noConfusion hidle,
    fun _ _ => ⟨hi, lo, [], ?_, rfl, rfl⟩⟩
  exact Eq.trans (openRun_of_bytes (bytes := [hi, lo]) h.marks rfl rfl) (congrArg (· ++ [hi, lo]) (h.closed he hp))

/-- FRM.DATA adds its byte to the run and to the payload, and absorbs it. -/
theorem stateInv_frmData {s : State} (h : StateInv s) (he : s.err = false) (hp : s.phase = .opened) (d : Byte) :
    ∃ t, exec (.frmData d) s = .next t ∧ StateInv t := by
  obtain ⟨hi, lo, payload, hrun, hcrc, -⟩ := h.frame he hp
  refine ⟨_, exec_frmData_of_opened he hp d, h.code, marks_append h _,
    fun _ hidle => Phase.noConfusion (hp.symm.trans hidle), fun _ _ => ⟨hi, lo, payload ++ [d], ?_, ?_, by simp⟩⟩
  · exact Eq.trans (openRun_of_bytes (bytes := [d]) h.marks rfl rfl) (congrArg (· ++ [d]) hrun)
  · rw [crcMsg_append_byte, ← hcrc]

/-- FRM.END closes the run, with a checksum or without one. -/
theorem stateInv_frmEnd {s : State} (h : StateInv s) (he : s.err = false) (hp : s.phase = .opened) :
    ∃ t, exec .frmEnd s = .next t ∧ StateInv t := by
  cases hn : s.nonempty with
  | true =>
    exact ⟨_, exec_frmEnd_of_nonempty he hp hn, h.code, marks_append h _,
      fun _ _ => openRun_of_end (s := s) (bytes := [s.crc]) h.marks rfl rfl, fun _ hopened => Phase.noConfusion hopened⟩
  | false =>
    exact ⟨_, exec_frmEnd_of_empty he hp hn, h.code, marks_append h _,
      fun _ _ => openRun_of_end (s := s) (bytes := []) h.marks rfl rfl, fun _ hopened => Phase.noConfusion hopened⟩

/-- Every command keeps the invariant: in its phase by its own effect, and elsewhere by taking a fault. -/
theorem stateInv_commandWord {i : Instr} (hword : isCommandWord i = true) {s : State} (h : StateInv s) :
    ∃ t, exec i s = .next t ∧ StateInv t := by
  cases he : s.err with
  | true => exact ⟨s, exec_of_err he i, h⟩
  | false =>
    obtain houtside | hinside | rfl := commandWord_cases hword
    · cases hp : s.phase with
      | idle =>
        obtain hcrc | ⟨hi, lo, rfl⟩ := houtside
        · exact stateInv_crcCommand hcrc h he hp
        · exact stateInv_frmStart h he hp hi lo
      | opened => exact ⟨_, exec_outsideFrame_of_opened houtside he hp, stateInv_faulted h (by decide)⟩
    · cases hp : s.phase with
      | idle => exact ⟨_, exec_insideFrame_of_idle hinside he hp, stateInv_faulted h (by decide)⟩
      | opened =>
        obtain rfl | ⟨d, rfl⟩ := hinside
        · exact stateInv_frmEnd h he hp
        · exact stateInv_frmData h he hp d
    · exact ⟨_, exec_reserved7_of_live he, stateInv_faulted h (by decide)⟩

theorem stateInv_nextState {s : State} (h : StateInv s) (i : Instr) : StateInv (nextState i s) := by
  refine nextState_keeps (fun c hc u hu => ?_) i h
  obtain ⟨t, hexec, ht⟩ := stateInv_commandWord hc hu
  exact nextState_of_exec hexec ▸ ht

/-- Settles O55: a step changes the port alone, resets the block, or runs an instruction, whose commands keep the
invariant one by one. -/
theorem stepKeepsInvariant : Obligations.StepKeepsInvariant := by
  unfold Obligations.StepKeepsInvariant
  intro s t hinv hstep
  obtain ⟨port, rfl⟩ | ⟨rest, -, rfl⟩ | ⟨_, rest, i, -, rfl⟩ := step_cases hstep
  · exact stateInv_port hinv port
  · exact stateInv_resetEvent (s := { s with port := rest }) hinv.marks
  · exact stateInv_nextState (stateInv_port hinv rest) i

/-- Settles O54: nothing is sent and no mark is set yet. -/
theorem resetMeetsInvariant : Obligations.ResetMeetsInvariant := by
  unfold Obligations.ResetMeetsInvariant
  exact ⟨iff_of_true rfl rfl, fun _ hm => absurd hm List.not_mem_nil, fun _ _ => rfl,
    fun _ hopened => Phase.noConfusion hopened⟩

/-- Settles O56: the frame that a BUILD_WRITE adds at a boundary is its own, and it is closed. -/
theorem buildWriteAddsOneFrame : Obligations.BuildWriteAddsOneFrame := by
  unfold Obligations.BuildWriteAddsOneFrame
  exact fun _ hi lo payload hinv hs => exec_buildWrite_adds_frame hinv hs hi lo payload

theorem errCode_bits_ne_three (k : ErrCode) : k.bits ≠ 3 := by
  cases k <;> decide

theorem errCode_bits_eq_zero (k : ErrCode) : k.bits = 0 ↔ k = .none := by
  cases k <;> decide

theorem ofBool_eq_zero (b : Bool) : BitVec.ofBool b = 0 ↔ b = false := by
  cases b <;> decide

/-- Settles O40: `err` and `err_code` are shown as they are, and the invariant joins them. -/
theorem statusLevels : Obligations.StatusLevels := by
  unfold Obligations.StatusLevels
  refine ⟨fun s => errCode_bits_ne_three s.errCode, fun s hinv => ?_, fun _ => ⟨rfl, rfl⟩, rfl, rfl, rfl⟩
  exact (ofBool_eq_zero s.err).trans (hinv.code.trans (errCode_bits_eq_zero s.errCode).symm)

end Sys2Proof.Machine
end
